-- ==== Sys2Proof/Word.lean ====
section
/-! DEFINITION. The word types of the block: bytes, 32-bit window words,
the 64-bit datapath word `W64` (00_scope.md R13, R14), 16-bit coefficients, 20-bit raw counts. -/

namespace Sys2Proof

/-- A byte is 8 bits (00_scope.md R13). -/
abbrev Byte := BitVec 8

/-- A 32-bit word of the register window, and a command word (30_encoding.md R90). -/
abbrev Word := BitVec 32

/-- A datapath value: a 64-bit pattern, read as two's complement signed (00_scope.md R14, `W64`). -/
abbrev W64 := BitVec 64

/-- A 16-bit coefficient pattern (10_state.md R21). -/
abbrev Coeff := BitVec 16

/-- A 20-bit raw count (10_state.md R25). -/
abbrev Raw20 := BitVec 20

end Sys2Proof
end

