-- ==== Sys2Proof/Config.lean ====
section
/-! DEFINITION. The parameters of 00_scope.md R8 that an implementation fixes, as plain data, and the
free values the spec leaves open, as opaque constants with no body. -/

namespace Sys2Proof

/-- `FLT`, the floating format and rounding of the two final divisions. 00_scope.md R8 decides it and
keeps no alternative, so the type has the one setting. -/
inductive FloatFormat where
  /-- IEEE 754 binary32, round to nearest, ties to even. -/
  | binary32NearestEven
deriving DecidableEq, Repr

/-- A range of agent identifiers, both ends included: the form in which R8 gives `AGENT_IDS`. -/
structure AgentRange where
  first : Byte
  last : Byte
deriving DecidableEq, Repr

/-- The identifier lies in the range. -/
def AgentRange.has (r : AgentRange) (a : Byte) : Bool := r.first ≤ a && a ≤ r.last

/-- Where the window stands as long as no platform has fixed `BASE`, which is "OPEN" with default "none"
(R8, 20_memory.md R71). A free value with no body (log entry 4, safe). -/
opaque Config.openBase : Nat

/-- The ten parameters of 00_scope.md R8: "A model takes each as a field of its configuration". A model
of the block carries one `Config` in its state (log entry 3, DESIGN CHOICE, safe: statements hold for
every setting) and no step changes it. -/
structure Config where
  /-- `BASE`: the byte address of window offset 0 on the host bus, where a platform has fixed it (R8,
  20_memory.md R60). -/
  base : Option Nat
  /-- `CAL_UNSIGNED`: the coefficient indices read as unsigned 16-bit (R8, R21, conflict C1). -/
  calUnsigned : List (Fin 12)
  /-- `T_MUL` (R8, conflict C2). -/
  tMul : W64
  /-- `T_RND` (R8). -/
  tRnd : W64
  /-- `T_DIV`, the divisor of the final temperature division (R8). -/
  tDiv : W64
  /-- `P_DIV`, the divisor of the final pressure division (R8, OPEN with a default). -/
  pDiv : W64
  /-- `FLT` (R8). -/
  flt : FloatFormat
  /-- `AGENT_IDS`: the identifiers host agents may present to the lock. The block cannot check more of
  them than that they are not 0 (R91, R191), so this binds the hosts: `Safety.AgentDuty` (R278). -/
  agentIds : AgentRange
  /-- `LOCK_FAIR`: a promise about endless runs, read by `Safety.FairRun` and by no step (R8,
  R199; what it promises exactly is log entry 16). -/
  lockFair : Bool
  /-- `STAGE_ATOMIC`: all stages of a command run in its accept step (R8, 30_encoding.md R103). -/
  stageAtomic : Bool
deriving DecidableEq, Repr

/-- The address of window offset 0: `BASE`, or a free value where it is open (log entry 4). -/
def Config.baseAddress (c : Config) : Nat :=
  match c.base with
  | some b => b
  | none => Config.openBase

/-- The default column of 00_scope.md R8. -/
def Config.default : Config where
  base := none
  calUnsigned := [0, 3]
  tMul := 5#64
  tRnd := 128#64
  tDiv := 25600#64
  pDiv := 256#64
  flt := .binary32NearestEven
  agentIds := ⟨1, 255⟩
  lockFair := false
  stageAtomic := false

/-- A setting R8 admits: both divisors are positive (`fdiv32` needs `d > 0`, R14), the first
temperature coefficient is unsigned ("it is, under both settings of `CAL_UNSIGNED`", R170), and no agent
has the identifier 0, which is no word's `AGENT` (30_encoding.md R91). -/
def Config.wf (c : Config) : Bool :=
  decide (0 < c.tDiv.toInt) && decide (0 < c.pDiv.toInt) && c.calUnsigned.contains 0 &&
    !c.agentIds.has 0

/-- The free values of the sequencer's temporaries between commands and after a reset (10_state.md R38:
"unspecified", U11 "any value"): `Config.freeBits w n k` is field `k`, of width `w`, of the `n`-th free
contents. No body, so nothing can be proved of it (log entry 6, safe). -/
opaque Config.freeBits (w n k : Nat) : BitVec w

/-- The value of `sdiv64(a, 0)`: "a model may define `sdiv64(a, 0)` as it likes and no run reads it"
(42_compensation.md R146). A free value of the dividend (log entry 7, safe). -/
opaque Config.quotientByZero : W64 → W64

/-- The value of `fdiv32(n, d)` for `d <= 0`, outside the domain 00_scope.md R14 gives it. A free
value of the operands (log entry 7, safe). -/
opaque Config.floatByNonPositive : W64 → W64 → BitVec 32

/-- An `AGENT` field a lock command may carry: not 0x00 (30_encoding.md R91). -/
def agentOk (a : Byte) : Bool := a != 0

end Sys2Proof
end

