-- ==== Sys2Proof/Syntax.lean ====
section
/-! DEFINITION. The commands of FPCP-CMD 1.0, one constructor per row of spec/opcode_table.json
(30_encoding.md R93). -/

namespace Sys2Proof

/-- A command of the block (30_encoding.md R93). -/
inductive Instr where
  /-- `NOP` (44_control.md R211). -/
  | nop
  /-- `CALLD`, calibration load (40_calibration.md R120). -/
  | calld
  /-- `RAWLD`, raw load (41_raw_decode.md R130). -/
  | rawld
  /-- `COMP`, compensate (42_compensation.md R140). -/
  | comp
  /-- `CLRERR`, clear error and diagnostics (44_control.md R212). -/
  | clrerr
  /-- `SRESET`, engine soft reset (44_control.md R213). -/
  | sreset
  /-- `LOCK_TRY a`, try-acquire for agent `a` (43_lock.md R192). -/
  | lockTry (agent : Byte)
  /-- `LOCK_REL a`, release by agent `a` (43_lock.md R194). -/
  | lockRel (agent : Byte)
deriving DecidableEq, Repr

end Sys2Proof
end

