-- ==== Sys2Proof/WellFormed.lean ====
section
/-! DEFINITION. Which terms of `Instr` are instructions of the block: `AGENT` must not be 0x00
(30_encoding.md R91). -/

namespace Sys2Proof

/-- A command the block has: the agent of a lock command is in 1..255 (30_encoding.md R91, R92). -/
def Instr.wf : Instr → Bool
  | .nop => true
  | .calld => true
  | .rawld => true
  | .comp => true
  | .clrerr => true
  | .sreset => true
  | .lockTry a => agentOk a
  | .lockRel a => agentOk a

end Sys2Proof
end

