-- ==== Sys2Proof/Decode.lean ====
section
/-! DEFINITION. Decoding a command word (30_encoding.md R94), total on all words and rejecting by name,
and the encoder written from the same table (R91, R93). -/

namespace Sys2Proof

/-! ### Byte order and wrapping -/

/-- `wrap(z)` of 00_scope.md R14: the 64-bit pattern congruent to `z` modulo `2^64`, read as signed. -/
def wrap (z : Int) : W64 := BitVec.ofInt 64 z

/-- Byte `j` of a word, bits `8j+7:8j` (20_memory.md R64). -/
def byteOf (w : Word) (j : Nat) : Byte := BitVec.ofNat 8 (w.toNat >>> (8 * j))

/-- The bytes of a word as the window stores them, byte 0 first (20_memory.md R64). -/
def wordBytes (w : Word) : List Byte := [byteOf w 0, byteOf w 1, byteOf w 2, byteOf w 3]

/-- The little-endian value of up to four bytes, the first one least significant (20_memory.md R64). -/
def bytesWord : List Byte → Word
  | [] => 0
  | b :: bs => BitVec.ofNat 32 (b.toNat + 256 * (bytesWord bs).toNat)

/-- Why a word is no command (30_encoding.md R94, R95). `short` is the byte decoder's own: fewer than
the four bytes of a command word (R90). -/
inductive DecodeError where
  | illegal
  | malformedLock
  | short
deriving DecidableEq, Repr

/-- `OPC = w[7:0]` (30_encoding.md R91). -/
def opcOf (w : Word) : Byte := w.extractLsb' 0 8

/-- `AGENT = w[15:8]` (30_encoding.md R91, R92). -/
def agentOf (w : Word) : Byte := w.extractLsb' 8 8

/-- `ZERO24 = w[31:8]` of format E (30_encoding.md R91). -/
def zero24Of (w : Word) : BitVec 24 := w.extractLsb' 8 24

/-- `ZERO16 = w[31:16]` of format L (30_encoding.md R91). -/
def zero16Of (w : Word) : BitVec 16 := w.extractLsb' 16 16

/-- The engine command an opcode of format E selects (30_encoding.md R93). -/
def decodeOpcE (op : Byte) : Except DecodeError Instr :=
  if op = 0x00#8 then .ok .nop
  else if op = 0x01#8 then .ok .calld
  else if op = 0x02#8 then .ok .rawld
  else if op = 0x03#8 then .ok .comp
  else if op = 0x04#8 then .ok .clrerr
  else if op = 0x05#8 then .ok .sreset
  else .error .illegal

/-- `decode(w)` of 30_encoding.md R94. -/
def decode (w : Word) : Except DecodeError Instr :=
  if opcOf w = 0x10#8 ∨ opcOf w = 0x11#8 then
    if zero16Of w ≠ 0 ∨ agentOf w = 0 then .error .malformedLock
    else if opcOf w = 0x10#8 then .ok (.lockTry (agentOf w))
    else .ok (.lockRel (agentOf w))
  else if zero24Of w ≠ 0 then .error .illegal
  else decodeOpcE (opcOf w)

/-- One command word off the front of a byte list, in the window's byte order (30_encoding.md R90,
20_memory.md R64), with the rest. -/
def decodeBytes : List Byte → Except DecodeError (Instr × List Byte)
  | b0 :: b1 :: b2 :: b3 :: rest =>
    match decode (bytesWord [b0, b1, b2, b3]) with
    | .ok i => .ok (i, rest)
    | .error e => .error e
  | _ => .error .short

/-- The opcode of a command (30_encoding.md R93). -/
def opcodeOf : Instr → Byte
  | .nop => 0x00
  | .calld => 0x01
  | .rawld => 0x02
  | .comp => 0x03
  | .clrerr => 0x04
  | .sreset => 0x05
  | .lockTry _ => 0x10
  | .lockRel _ => 0x11

/-- The `AGENT` field of a command's word: zero, with all of `ZERO24`, in format E. -/
def agentFieldOf : Instr → Byte
  | .nop => 0
  | .calld => 0
  | .rawld => 0
  | .comp => 0
  | .clrerr => 0
  | .sreset => 0
  | .lockTry a => a
  | .lockRel a => a

/-- The word of a command: `ZERO16`, `AGENT`, `OPC` from the high bits down (30_encoding.md R91, R93). -/
def encode (i : Instr) : Word := (0#16 ++ agentFieldOf i) ++ opcodeOf i

/-- The bytes of a command word in the window's order (20_memory.md R64). -/
def encodeBytes (i : Instr) : List Byte := wordBytes (encode i)

/-- `match` of the row of 30_encoding.md R93 a command belongs to. -/
def tableMatch : Instr → Word
  | .nop => 0x00000000
  | .calld => 0x00000001
  | .rawld => 0x00000002
  | .comp => 0x00000003
  | .clrerr => 0x00000004
  | .sreset => 0x00000005
  | .lockTry _ => 0x00000010
  | .lockRel _ => 0x00000011

/-- `mask` of the row of 30_encoding.md R93 a command belongs to. -/
def tableMask : Instr → Word
  | .nop => 0xFFFFFFFF
  | .calld => 0xFFFFFFFF
  | .rawld => 0xFFFFFFFF
  | .comp => 0xFFFFFFFF
  | .clrerr => 0xFFFFFFFF
  | .sreset => 0xFFFFFFFF
  | .lockTry _ => 0xFFFF00FF
  | .lockRel _ => 0xFFFF00FF

/-- The first `nbits` bits of a table word, as a number: every bit above them is 0. -/
def tableBits (nbits w : Nat) : Nat := w % 2 ^ nbits

/-- The instruction the decoder reads from a word numbered as spec/opcode_table.json numbers it: laid
out least significant byte first (20_memory.md R64) and given to `decodeBytes`; none where it refuses,
or where a bit above the 32 of a command word is set (30_encoding.md R90). -/
def decodeTableWord (nbits w : Nat) : Option Instr :=
  if tableBits nbits w < 2 ^ 32 then
    match decodeBytes (wordBytes (BitVec.ofNat 32 (tableBits nbits w))) with
    | .ok (i, _) => some i
    | .error _ => none
  else none

end Sys2Proof
end

