-- ==== Sys2Proof/Machine/Agents.lean ====
section
/-! DEFINITION. The inputs of the block as plain data (10_state.md R43): accesses to the register window or to the host bus around it,
operations on the external bus, the lines of a host program, a host thread, and the events whose order
the outside world chooses. -/

namespace Sys2Proof.Machine

/-- One host access to the window (20_memory.md R62): `n` bytes at offset `off`; the value of a write
stands in the low `n` bytes of `v`. -/
inductive Access where
  | read (off n : Nat)
  | write (off n : Nat) (v : Word)
deriving DecidableEq, Repr

/-- What the host bus answers to an access: nothing yet, the `n` bytes read as a zero-extended value,
an acknowledged write, or a bus error (20_memory.md R63). The model's own record (log entry 10). -/
inductive Response where
  | none
  | value (n : Nat) (v : Word)
  | ack
  | busError
deriving DecidableEq, Repr

/-- The two bus operations of the transport (70_reset_and_hazards.md R270). -/
inductive BusKind where
  | read
  | write
deriving DecidableEq, Repr

/-- The result of a bus operation (70_reset_and_hazards.md R270). -/
inductive BusResult where
  | ok
  | busFault
deriving DecidableEq, Repr

/-- A bus operation with all that comes from outside: the bytes a read returns and the result are
inputs of the run (70_reset_and_hazards.md R270). The address is the fixed 7-bit bus address (R268). -/
structure BusOp where
  kind : BusKind
  address : BitVec 7
  register : Nat
  bytes : List Byte
  result : BusResult
deriving DecidableEq, Repr

/-- A recorded bus event `(agent, kind, address, register, bytes, result)`
(70_reset_and_hazards.md R270). -/
structure BusEvent where
  agent : Byte
  op : BusOp
deriving DecidableEq, Repr

/-- A line of a host program (30_encoding.md R104), or a point inside one of the looping
pseudo-instructions of R105: `lockAcqRead`, `lockTryNRead` are their `RD 0x0C` halves. One line is one
host step at a time. The straight-line pseudo-instructions are lists of lines (`rd64`, `ldcal`, `ldraw`
in Machine/Hosts.lean). -/
inductive Line where
  /-- `WR off, v`. -/
  | wr (off : Nat) (v : Word)
  /-- `WRH off, v`. -/
  | wrh (off : Nat) (v : BitVec 16)
  /-- `WRB off, v`. -/
  | wrb (off : Nat) (v : Byte)
  /-- `RD off`. -/
  | rd (off : Nat)
  /-- A command mnemonic: `WR 0x00` of its word. -/
  | cmd (i : Instr)
  /-- `BUS a: text`, with `a` the thread's own identifier. -/
  | bus (op : BusOp)
  /-- `LOCK_ACQ a`, about to write `LOCK_TRY a` (43_lock.md R196). -/
  | lockAcq (a : Byte)
  /-- `LOCK_ACQ a`, about to read `LOCK`. -/
  | lockAcqRead (a : Byte)
  /-- `LOCK_TRYN a, n`, about to write `LOCK_TRY a`, at most `n` tries left (43_lock.md R197). -/
  | lockTryN (a : Byte) (n : Nat)
  /-- `LOCK_TRYN a, n`, about to read `LOCK`, `m` tries left after this one. -/
  | lockTryNRead (a : Byte) (m : Nat)
  /-- `WAIT` (30_encoding.md R105). -/
  | wait
deriving DecidableEq, Repr

/-- The result of a bounded acquire (43_lock.md R197). -/
inductive TryResult where
  | granted
  | busy
deriving DecidableEq, Repr

/-- A host thread: its identifier (43_lock.md R191), the lines it has still to perform, the value read
last (`r` of 30_encoding.md R104), the one read before it (for `RD64`), and the result of its last
acquire. -/
structure Thread where
  agent : Byte
  prog : List Line
  r : Word
  rPrev : Word
  result : Option TryResult
deriving DecidableEq, Repr

/-- What may happen next, as the outside world orders it (00_scope.md R10, R11): a step of the
sequencer, an access by some host agent at a window offset or at a byte address of the host bus
(20_memory.md R60), the next line of host thread `k`, a bus operation of agent `a`
at the transport, a hardware reset (70_reset_and_hazards.md R260). -/
inductive Event where
  | sequencer
  | access (a : Access)
  | address (a : Access)
  | thread (k : Nat)
  | bus (a : Byte) (op : BusOp)
  | hardReset
deriving DecidableEq, Repr, Inhabited

end Sys2Proof.Machine

namespace Sys2Proof

/-- The order in which the outside world goes on for ever, where no list of inputs is placed: its `n`-th
event. "Any enabled agent may step next; the order is free" (00_scope.md R11), "the choice of which
enabled agent steps next" is a parameter of the step relation (10_state.md R43). A free value with no
body (log entry 1, safe): what is proved of a run that follows it holds for every endless order. -/
opaque Config.schedule : Nat → Machine.Event

end Sys2Proof
end

