-- ==== Sys2Proof/Machine/State.lean ====
section
/-! DEFINITION. The state of the block (10_state.md R20) as plain data, with the inputs and parameters
of the step relation beside it (R43), the reasons a step can stop, and the state after hardware reset
(R42). -/

namespace Sys2Proof.Machine

/-- The stages of the sequencer, one constructor per row of 30_encoding.md R100. `STAGE` "never holds
another value". -/
inductive Stage where
  | idle
  | calParse | calCheck | calCommit
  | rawDecode | rawCheck | rawCommit
  | tS1 | tS2 | tS3 | tS4
  | pS1 | pS2 | pS3 | pS4 | pS5 | pS6 | pS7 | pS8 | pS9 | pS10 | pS11 | pS12
  | fcvt | compCommit
deriving DecidableEq, Repr

/-- Twelve 16-bit patterns under the aliases of 10_state.md R22: `t1` is index 0, `p9` index 11. -/
structure CalSet where
  t1 : Coeff
  t2 : Coeff
  t3 : Coeff
  p1 : Coeff
  p2 : Coeff
  p3 : Coeff
  p4 : Coeff
  p5 : Coeff
  p6 : Coeff
  p7 : Coeff
  p8 : Coeff
  p9 : Coeff
deriving DecidableEq, Repr

/-- The Raw Measurement registers `RAW_T`, `RAW_P` (10_state.md R25). -/
structure Raw where
  t : Raw20
  p : Raw20
deriving DecidableEq, Repr

/-- The six result registers (10_state.md R26, R27). -/
structure Results where
  tFine : W64
  tNum : W64
  tCenti : W64
  pQ : W64
  tFlt : Word
  pFlt : Word
deriving DecidableEq, Repr

/-- The eleven status bits (10_state.md R29 to R34). -/
structure Flags where
  busy : Bool
  done : Bool
  err : Bool
  failed : Bool
  calValid : Bool
  rawValid : Bool
  resValid : Bool
  zden : Bool
  ovf : Bool
  cmdovr : Bool
  lockviol : Bool
deriving DecidableEq, Repr

/-- The lock cell `(HELD, OWNER)` (43_lock.md R190). -/
structure LockCell where
  held : Bool
  owner : Byte
deriving DecidableEq, Repr

/-- The sequencer's temporaries (10_state.md R38). -/
structure Temps where
  tcal : CalSet
  tt : Raw20
  tp : Raw20
  a : W64
  b : W64
  v1 : W64
  v2 : W64
  fine : W64
  tnum : W64
  tcenti : W64
  x : W64
  y : W64
  p : W64
  tf : Word
  pf : Word
deriving DecidableEq, Repr

/-- The inputs and observations outside the block (10_state.md R43): the steps to come that
are placed, how the order goes on behind them (`none`: no host acts again; `some n`: with event `n` of
the free order `Config.schedule`), the host threads, the last response of the host bus, and the bus events recorded so far, newest first. -/
structure Env where
  inputs : List Event
  order : Option Nat
  threads : List Thread
  resp : Response
  busLog : List BusEvent
deriving DecidableEq, Repr

/-- The whole state. `cal` to `tmp` are the block's (10_state.md R20); `cfg`, `free` and `env` are the
model's own (log entries 1, 3, 6). `mem` holds `CALBUF` and `RAWBUF` as (window offset, byte) pairs in
the canonical form of `Memory.wf`; an unlisted buffer byte is 0x00, its reset value (R45, log
entry 12). -/
structure State where
  cfg : Config
  cal : CalSet
  mem : List Host.Cell
  raw : Raw
  res : Results
  flags : Flags
  stage : Stage
  cause : Byte
  lock : LockCell
  tmp : Temps
  free : Nat
  env : Env
deriving DecidableEq, Repr

/-- The reasons the machine stops. -/
inductive Fault where
  /-- Raised by a turn of the sequencer when `BUSY = 1` and `STAGE = IDLE`: 30_encoding.md R100 gives
  `IDLE` no stage to perform and 10_state.md R35 excludes the pair. Safe: no run from reset reaches it
  (log entry 8). -/
  | busyWithoutStage
deriving DecidableEq, Repr

/-- The reasons the model gives an instruction no meaning. -/
inductive Refusal where
  /-- Raised by `exec` for an instruction the model has no meaning for; no arm uses it. Safe. -/
  | notModelled (mnemonic : String)
deriving DecidableEq, Repr

/-- Twelve zero coefficients (10_state.md R42). -/
def CalSet.zero : CalSet := ⟨0, 0, 0, 0, 0, 0, 0, 0, 0, 0, 0, 0⟩

/-- Both raw registers 0 (10_state.md R42). -/
def Raw.zero : Raw := ⟨0, 0⟩

/-- All six result registers 0 (10_state.md R42). -/
def Results.zero : Results := ⟨0, 0, 0, 0, 0, 0⟩

/-- All eleven status bits 0 (10_state.md R42). -/
def Flags.zero : Flags :=
  ⟨false, false, false, false, false, false, false, false, false, false, false⟩

/-- The free lock (10_state.md R42). -/
def LockCell.zero : LockCell := ⟨false, 0⟩

/-- The temporaries the model starts from: DESIGN CHOICE 0, unsafe (log entry 5; the spec leaves them
"unspecified, unobservable" and lets a model initialise them to 0, U11). -/
def Temps.zero : Temps := ⟨CalSet.zero, 0, 0, 0, 0, 0, 0, 0, 0, 0, 0, 0, 0, 0, 0⟩

/-- No input placed and none to come, no thread, no response yet, nothing recorded (log entries 1, 2). -/
def Env.empty : Env := ⟨[], none, [], .none, []⟩

/-- The block after hardware reset (10_state.md R42, 70_reset_and_hazards.md R261), under the default
parameters of 00_scope.md R8 (log entry 3). -/
def State.reset : State where
  cfg := Config.default
  cal := CalSet.zero
  mem := []
  raw := Raw.zero
  res := Results.zero
  flags := Flags.zero
  stage := .idle
  cause := 0
  lock := LockCell.zero
  tmp := Temps.zero
  free := 0
  env := Env.empty

end Sys2Proof.Machine
end

