-- ==== Sys2Proof/Machine/Ops.lean ====
section
/-! DEFINITION. The shared operations on the state: the buffer memory, the error entry (the block's one
trap, 60_exceptions.md R230) and what ends it, the accept of a staged command, the free temporaries, the
two resets, and the small updates of the fields outside the block. -/

namespace Sys2Proof.Machine

/-! ### Buffer memory -/

/-- What a buffer byte not listed reads as: its reset value 0x00 (10_state.md R45, log entry 12). -/
def Memory.unlisted : Byte := 0x00

/-- One byte of the buffers at window offset `a`. -/
def Memory.read : List Host.Cell → Nat → Byte
  | [], _ => Memory.unlisted
  | c :: rest, a => if c.1 = a then c.2 else Memory.read rest a

/-- The list with the entry for `a` taken out. -/
def Memory.erase : List Host.Cell → Nat → List Host.Cell
  | [], _ => []
  | c :: rest, a => if c.1 = a then rest else c :: Memory.erase rest a

/-- The list with an entry put before the first higher address. -/
def Memory.insert : List Host.Cell → Nat → Byte → List Host.Cell
  | [], a, v => [(a, v)]
  | c :: rest, a, v =>
    if c.1 < a then c :: Memory.insert rest a v
    else if c.1 = a then (a, v) :: rest
    else (a, v) :: c :: rest

/-- Write one byte; writing what an unlisted byte reads as removes the entry. -/
def Memory.write (m : List Host.Cell) (a : Nat) (v : Byte) : List Host.Cell :=
  if v = Memory.unlisted then Memory.erase m a else Memory.insert m a v

/-- First offset of `CALBUF` (10_state.md R40). -/
def calbufBase : Nat := 0x10

/-- First offset of `RAWBUF` (10_state.md R40). -/
def rawbufBase : Nat := 0x28

/-- One past the last offset of `RAWBUF`; 0x2E and 0x2F are reserved (10_state.md R40). -/
def bufferEnd : Nat := 0x2E

/-- The buffers' offsets, 0x10 to 0x2D (10_state.md R45). -/
def isBufferByte (a : Nat) : Bool := decide (calbufBase ≤ a) && decide (a < bufferEnd)

/-- Addresses strictly rising, all above `lo - 1`, all buffer offsets, no entry equal to the unlisted
value. -/
def Memory.wfFrom (lo : Nat) : List Host.Cell → Bool
  | [] => true
  | c :: rest =>
    decide (lo ≤ c.1) && isBufferByte c.1 && (c.2 != Memory.unlisted) && Memory.wfFrom (c.1 + 1) rest

/-- The canonical form of the buffer memory. -/
def Memory.wf (m : List Host.Cell) : Bool := Memory.wfFrom 0 m

/-! ### Error kinds and the error entry -/

/-- The error kinds of 60_exceptions.md R221; the first four are detected by host software only (R220). -/
inductive ErrorKind where
  | busFault | notFound | unresponsive | calibrationReadFailed
  | invalidCalibration | invalidRawReading | notReady | illegalCommand | calLocked | rawMissing
deriving DecidableEq, Repr

/-- The cause code of an error kind (60_exceptions.md R221). -/
def ErrorKind.code : ErrorKind → Byte
  | .busFault => 1
  | .notFound => 2
  | .unresponsive => 3
  | .calibrationReadFailed => 4
  | .invalidCalibration => 5
  | .invalidRawReading => 6
  | .notReady => 7
  | .illegalCommand => 8
  | .calLocked => 9
  | .rawMissing => 10

/-- Whether the block raises the kind; the others are host only (60_exceptions.md R221). -/
def ErrorKind.raisedByBlock : ErrorKind → Bool
  | .busFault => false
  | .notFound => false
  | .unresponsive => false
  | .calibrationReadFailed => false
  | .invalidCalibration => true
  | .invalidRawReading => true
  | .notReady => true
  | .illegalCommand => true
  | .calLocked => true
  | .rawMissing => true

/-- Whether an error entry of the kind sets `FAILED`: "Only `InvalidCalibration` is fatal in the block"
(60_exceptions.md R233). -/
def ErrorKind.fatal : ErrorKind → Bool
  | .busFault => false
  | .notFound => false
  | .unresponsive => false
  | .calibrationReadFailed => false
  | .invalidCalibration => true
  | .invalidRawReading => false
  | .notReady => false
  | .illegalCommand => false
  | .calLocked => false
  | .rawMissing => false

/-- The error entry `raise Name(c)` (60_exceptions.md R230): nothing is saved, the flags and `CAUSE`
tell of the error, and the sequencer goes to `IDLE`. -/
def State.raiseError (s : State) (e : ErrorKind) : State :=
  { s with
    flags := { s.flags with
      busy := false, done := false, err := true, failed := s.flags.failed || e.fatal }
    cause := e.code
    stage := .idle }

/-- What `CLRERR` does, the acknowledgement of an error entry (44_control.md R212, 60_exceptions.md R241:
there is no return command). -/
def State.clearError (s : State) : State :=
  { s with
    flags := { s.flags with
      err := false, done := false, cmdovr := false, lockviol := false }
    cause := 0 }

/-! ### Accept, commit, temporaries -/

/-- The flags and registers every accepted staged command sets, `BUSY <- 1 ; DONE <- 0 ; ERR <- 0 ;
CAUSE <- 0 ; STAGE <- first` (40_calibration.md R121, 41_raw_decode.md R131, 42_compensation.md R148). -/
def State.accept (s : State) (first : Stage) : State :=
  { s with
    flags := { s.flags with busy := true, done := false, err := false }
    cause := 0
    stage := first }

/-- The flags every commit stage sets, `BUSY <- 0 ; DONE <- 1 ; STAGE <- 0x00` (30_encoding.md R101). -/
def State.finish (s : State) : State :=
  { s with
    flags := { s.flags with busy := false, done := true }
    stage := .idle }

/-- Free contents of the twelve `TCAL`. -/
def freeCal (n : Nat) : CalSet where
  t1 := Config.freeBits 16 n 0
  t2 := Config.freeBits 16 n 1
  t3 := Config.freeBits 16 n 2
  p1 := Config.freeBits 16 n 3
  p2 := Config.freeBits 16 n 4
  p3 := Config.freeBits 16 n 5
  p4 := Config.freeBits 16 n 6
  p5 := Config.freeBits 16 n 7
  p6 := Config.freeBits 16 n 8
  p7 := Config.freeBits 16 n 9
  p8 := Config.freeBits 16 n 10
  p9 := Config.freeBits 16 n 11

/-- Free contents of all temporaries, the `n`-th (10_state.md R38, log entry 6). -/
def freeTemps (n : Nat) : Temps where
  tcal := freeCal n
  tt := Config.freeBits 20 n 12
  tp := Config.freeBits 20 n 13
  a := Config.freeBits 64 n 14
  b := Config.freeBits 64 n 15
  v1 := Config.freeBits 64 n 16
  v2 := Config.freeBits 64 n 17
  fine := Config.freeBits 64 n 18
  tnum := Config.freeBits 64 n 19
  tcenti := Config.freeBits 64 n 20
  x := Config.freeBits 64 n 21
  y := Config.freeBits 64 n 22
  p := Config.freeBits 64 n 23
  tf := Config.freeBits 32 n 24
  pf := Config.freeBits 32 n 25

/-- The temporaries after the end of a command or a reset: "unspecified" between commands
(10_state.md R38), so a fresh free value (log entry 6). -/
def State.forgetTemps (s : State) : State :=
  { s with tmp := freeTemps s.free, free := s.free + 1 }

/-! ### Resets -/

/-- `SRESET`'s effect on the state items (44_control.md R213): every item of 10_state.md R42 but the
lock cell takes its reset value; the temporaries are unspecified. -/
def State.softReset (s : State) : State :=
  State.forgetTemps
    { s with
      cal := CalSet.zero
      mem := []
      raw := Raw.zero
      res := Results.zero
      flags := Flags.zero
      stage := .idle
      cause := 0 }

/-- Hardware reset (70_reset_and_hazards.md R260): as the soft reset, and the lock cell too. -/
def State.hardReset (s : State) : State :=
  { s.softReset with lock := LockCell.zero }

/-! ### Single flags -/

/-- `CMDOVR <- 1` (10_state.md R34). -/
def State.setCmdovr (s : State) : State :=
  { s with flags := { s.flags with cmdovr := true } }

/-- `LOCKVIOL <- 1` (10_state.md R34). -/
def State.setLockviol (s : State) : State :=
  { s with flags := { s.flags with lockviol := true } }

/-! ### The fields outside the block -/

/-- The state with the list of inputs replaced. -/
def State.withInputs (s : State) (es : List Event) : State :=
  { s with env := { s.env with inputs := es } }

/-- The state with the rest of the order of events replaced (log entry 1). -/
def State.withOrder (s : State) (o : Option Nat) : State :=
  { s with env := { s.env with order := o } }

/-- The state with the host bus's response replaced (log entry 10). -/
def State.withResp (s : State) (r : Response) : State :=
  { s with env := { s.env with resp := r } }

/-- The state with host thread `k` replaced. -/
def State.withThread (s : State) (k : Nat) (th : Thread) : State :=
  { s with env := { s.env with threads := s.env.threads.set k th } }

/-- The state with one bus event more on record (70_reset_and_hazards.md R270). -/
def State.logBus (s : State) (a : Byte) (op : BusOp) : State :=
  { s with env := { s.env with busLog := ⟨a, op⟩ :: s.env.busLog } }

end Sys2Proof.Machine
end

