-- ==== Sys2Proof/Machine/Operands.lean ====
section
/-! DEFINITION. The operands of the commands, all implicit but `AGENT` (30_encoding.md R92): the bytes of
`CALBUF` and `RAWBUF`, the coefficients as datapath values (10_state.md R21), the raw counts. -/

namespace Sys2Proof.Machine

/-- `CALBUF[i]` (10_state.md R45). -/
def calbuf (m : List Host.Cell) (i : Nat) : Byte := Memory.read m (calbufBase + i)

/-- `RAWBUF[i]` (10_state.md R45). -/
def rawbuf (m : List Host.Cell) (i : Nat) : Byte := Memory.read m (rawbufBase + i)

/-- Coefficient `k` of the block in `CALBUF`: `{CALBUF[2k+1], CALBUF[2k]}`, low byte at the even position
(20_memory.md R65, 40_calibration.md R122). -/
def calPair (m : List Host.Cell) (k : Nat) : Coeff := calbuf m (2 * k + 1) ++ calbuf m (2 * k)

/-- The twelve coefficients parsed by position (40_calibration.md R122, 10_state.md R22). -/
def parseCal (m : List Host.Cell) : CalSet where
  t1 := calPair m 0
  t2 := calPair m 1
  t3 := calPair m 2
  p1 := calPair m 3
  p2 := calPair m 4
  p3 := calPair m 5
  p4 := calPair m 6
  p5 := calPair m 7
  p6 := calPair m 8
  p7 := calPair m 9
  p8 := calPair m 10
  p9 := calPair m 11

/-- `CALBUF[i] = 0xFF` for every `i` below `n` (40_calibration.md R123 with `n = 24`). -/
def calbufAllFF (m : List Host.Cell) : Nat → Bool
  | 0 => true
  | n + 1 => (calbuf m n == 0xFF#8) && calbufAllFF m n

/-- The 20-bit value of the triplet whose first byte is `RAWBUF[i]`:
`(b0 << 12) | (b1 << 4) | (b2 >> 4)` (41_raw_decode.md R132, 20_memory.md R66). -/
def rawTriplet (m : List Host.Cell) (i : Nat) : Raw20 :=
  BitVec.ofNat 20
    (((rawbuf m i).toNat <<< 12) ||| ((rawbuf m (i + 1)).toNat <<< 4) |||
      ((rawbuf m (i + 2)).toNat >>> 4))

/-- The two sentinel raw values (41_raw_decode.md R133). -/
def isSentinel (r : Raw20) : Bool := (r == 0x00000#20) || (r == 0x80000#20)

/-- `CAL[k]` by index (10_state.md R22). -/
def CalSet.get (c : CalSet) (k : Fin 12) : Coeff :=
  match k with
  | 0 => c.t1
  | 1 => c.t2
  | 2 => c.t3
  | 3 => c.p1
  | 4 => c.p2
  | 5 => c.p3
  | 6 => c.p4
  | 7 => c.p5
  | 8 => c.p6
  | 9 => c.p7
  | 10 => c.p8
  | 11 => c.p9

/-- Whether coefficient `k` is read as unsigned (10_state.md R21). -/
def isUnsigned (cfg : Config) (k : Fin 12) : Bool := cfg.calUnsigned.contains k

/-- `CAL[k]` as a datapath operand: `zext_16` when `k` is in `CAL_UNSIGNED`, `sext_16` otherwise
(10_state.md R21). -/
def coeffOperand (cfg : Config) (c : CalSet) (k : Fin 12) : W64 :=
  if isUnsigned cfg k then (c.get k).zeroExtend 64 else (c.get k).signExtend 64

/-- `CAL[k]` extended to 32 bits as `CAL_W[k]` shows it (10_state.md R46). -/
def coeffWord (cfg : Config) (c : CalSet) (k : Fin 12) : Word :=
  if isUnsigned cfg k then (c.get k).zeroExtend 32 else (c.get k).signExtend 32

/-- A raw count as a datapath operand, in `0..2^20-1` (42_compensation.md R141). -/
def rawOperand (r : Raw20) : W64 := r.zeroExtend 64

end Sys2Proof.Machine
end

