-- ==== Sys2Proof/Machine/Flags.lean ====
section
/-! DEFINITION. The flag computations: the overflow condition behind `OVF` (00_scope.md R14), and the
words that show the flags, `CAUSE` and the lock cell (10_state.md R29, R36, R37). -/

namespace Sys2Proof.Machine

/-- `INT_MIN` of 00_scope.md R14. -/
def intMin : Int := -9223372036854775808

/-- `INT_MAX` of 00_scope.md R14. -/
def intMax : Int := 9223372036854775807

/-- The exact result lies in `[INT_MIN, INT_MAX]`; otherwise the primitive sets `OVF` (00_scope.md R14). -/
def fits64 (z : Int) : Bool := decide (intMin ≤ z) && decide (z ≤ intMax)

/-- A bit as a number. -/
def bit (b : Bool) : Nat := if b then 1 else 0

/-- The code of a stage, the value of the `STAGE` register (30_encoding.md R100). -/
def Stage.code : Stage → Byte
  | .idle => 0x00
  | .calParse => 0x01
  | .calCheck => 0x02
  | .calCommit => 0x03
  | .rawDecode => 0x04
  | .rawCheck => 0x05
  | .rawCommit => 0x06
  | .tS1 => 0x10
  | .tS2 => 0x11
  | .tS3 => 0x12
  | .tS4 => 0x13
  | .pS1 => 0x14
  | .pS2 => 0x15
  | .pS3 => 0x16
  | .pS4 => 0x17
  | .pS5 => 0x18
  | .pS6 => 0x19
  | .pS7 => 0x1A
  | .pS8 => 0x1B
  | .pS9 => 0x1C
  | .pS10 => 0x1D
  | .pS11 => 0x1E
  | .pS12 => 0x1F
  | .fcvt => 0x20
  | .compCommit => 0x21

/-- `STATUS` (10_state.md R29): bits 0 to 10 the flags, 15:11 zero, 23:16 `STAGE`, 31:24 zero. -/
def statusWord (f : Flags) (st : Stage) : Word :=
  BitVec.ofNat 32
    (bit f.busy + 2 * bit f.done + 4 * bit f.err + 8 * bit f.failed + 16 * bit f.calValid
      + 32 * bit f.rawValid + 64 * bit f.resValid + 128 * bit f.zden + 256 * bit f.ovf
      + 512 * bit f.cmdovr + 1024 * bit f.lockviol + 65536 * st.code.toNat)

/-- `CAUSE` (10_state.md R36): bits 7:0 the code, the rest 0. -/
def causeWord (c : Byte) : Word := c.zeroExtend 32

/-- `LOCK` (10_state.md R37): bit 31 `HELD`, bits 7:0 `OWNER`, bits 30:8 zero. -/
def lockWord (l : LockCell) : Word :=
  BitVec.ofNat 32 (2147483648 * bit l.held + l.owner.toNat)

end Sys2Proof.Machine
end

