-- ==== Sys2Proof/Machine/Arith.lean ====
section
/-! DEFINITION. The datapath primitives of 00_scope.md R14 and 42_compensation.md R141 to R147: the exact
result is computed in `Int` and then wrapped, and the overflow is the exact result that does not fit. -/

namespace Sys2Proof.Machine

/-- A datapath value together with whether a primitive that led to it set `OVF` ("no primitive ever
clears it", 00_scope.md R14). -/
structure Flagged where
  val : W64
  ovf : Bool
deriving DecidableEq, Repr

/-- A value that has set nothing. -/
def Flagged.pure (v : W64) : Flagged := ⟨v, false⟩

/-- An exact result wrapped to 64 bits, with its overflow (00_scope.md R14). -/
def exactResult (z : Int) : Flagged := ⟨wrap z, !fits64 z⟩

/-- `add64(a, b)` (42_compensation.md R142). -/
def add64 (a b : W64) : Flagged := exactResult (a.toInt + b.toInt)

/-- `sub64(a, b)` (42_compensation.md R142). -/
def sub64 (a b : W64) : Flagged := exactResult (a.toInt - b.toInt)

/-- `mul64(a, b)` (42_compensation.md R143). -/
def mul64 (a b : W64) : Flagged := exactResult (a.toInt * b.toInt)

/-- `shl64(a, k)` (42_compensation.md R144). -/
def shl64 (a : W64) (k : Nat) : Flagged := exactResult (a.toInt * ((2 ^ k : Nat) : Int))

/-- `sra64(a, k) = floor(a / 2^k)` (42_compensation.md R145): `/` on `Int` with a positive divisor rounds
toward minus infinity. It never sets `OVF`. -/
def sra64 (a : W64) (k : Nat) : Flagged := Flagged.pure (wrap (a.toInt / ((2 ^ k : Nat) : Int)))

/-- `sdiv64(a, b)` (42_compensation.md R146): the quotient rounded toward zero. For `b = 0`, which no run
reaches and the spec leaves to the model, a free value (log entry 7). -/
def sdiv64 (a b : W64) : Flagged :=
  if b = 0 then Flagged.pure (Config.quotientByZero a)
  else exactResult (Int.tdiv a.toInt b.toInt)

/-! The primitives on values that carry their overflow: innermost first, each wraps before the next one
reads it (42_compensation.md R147). -/

/-- `r` with the overflows of its operands kept. -/
def Flagged.after (r : Flagged) (o : Bool) : Flagged := ⟨r.val, o || r.ovf⟩

/-- `add64` on flagged operands. -/
def Flagged.add (x y : Flagged) : Flagged := (add64 x.val y.val).after (x.ovf || y.ovf)

/-- `sub64` on flagged operands. -/
def Flagged.sub (x y : Flagged) : Flagged := (sub64 x.val y.val).after (x.ovf || y.ovf)

/-- `mul64` on flagged operands. -/
def Flagged.mul (x y : Flagged) : Flagged := (mul64 x.val y.val).after (x.ovf || y.ovf)

/-- `shl64` on a flagged operand. -/
def Flagged.shl (x : Flagged) (k : Nat) : Flagged := (shl64 x.val k).after x.ovf

/-- `sra64` on a flagged operand. -/
def Flagged.sra (x : Flagged) (k : Nat) : Flagged := (sra64 x.val k).after x.ovf

/-- `sdiv64` on flagged operands. -/
def Flagged.sdiv (x y : Flagged) : Flagged := (sdiv64 x.val y.val).after (x.ovf || y.ovf)

/-! The final floating conversion, one rounding to binary32, to nearest, ties to even
(42_compensation.md R167). -/

/-- `num / den` rounded to the nearest integer, ties to even. -/
def roundHalfEven (num den : Nat) : Nat :=
  let q := num / den
  let r := num % den
  if 2 * r < den then q
  else if den < 2 * r then q + 1
  else if q % 2 = 0 then q
  else q + 1

/-- `floor(log2(num / den))` offset by 64, for `0 < num`, `0 < den` below `2^64`: the quotient lies
between the powers of two that the bit lengths give, and one comparison decides. -/
def floatScale (num den : Nat) : Nat :=
  if den * 2 ^ num.log2 ≤ num * 2 ^ den.log2 then 64 + num.log2 - den.log2
  else 63 + num.log2 - den.log2

/-- The 24-bit significand (or `2^24` after a carry) of `num / den` at scale `e`: the quotient times
`2^(23 - (e - 64))`, rounded once. -/
def floatSignificand (num den e : Nat) : Nat := roundHalfEven (num * 2 ^ 87) (den * 2 ^ e)

/-- The binary32 magnitude bits (exponent biased by 127, then the fraction) of `num / den`, for
`0 < num`: the significand's leading one adds 1 to the exponent field, and a carry moves it on. -/
def floatMagnitude (num den : Nat) : Nat :=
  (floatScale num den + 62) * 2 ^ 23 + floatSignificand num den (floatScale num den)

/-- `fdiv32(n, d)` (00_scope.md R14, 42_compensation.md R167): the binary32 pattern nearest the exact
quotient; `n = 0` gives +0.0. For `d <= 0`, outside its domain, a free value (log entry 7). -/
def fdiv32 (n d : W64) : Word :=
  if d.toInt ≤ 0 then Config.floatByNonPositive n d
  else if n = 0 then 0
  else if n.toInt < 0 then
    BitVec.ofNat 32 (2 ^ 31 + floatMagnitude n.toInt.natAbs d.toNat)
  else BitVec.ofNat 32 (floatMagnitude n.toInt.natAbs d.toNat)

/-- The final division in the format and rounding of `FLT` (00_scope.md R8). -/
def floatQuotient (f : FloatFormat) (n d : W64) : Word :=
  match f with
  | .binary32NearestEven => fdiv32 n d

end Sys2Proof.Machine
end

