-- ==== Sys2Proof/Machine/Pipeline.lean ====
section
/-! DEFINITION. The compensation datapath: what each stage of `COMP` from `T_S1` to `FCVT` does to the
temporaries, `ZDEN` and `OVF` (42_compensation.md R150 to R167), and the function `Compensate` they
compose to (R169). The operations, their order, the shift counts and the constants are the spec's
"from general knowledge, not in source" (93_implementation_defined.md G1, G3); this file is the one
place that holds them (R169, D37; log entry 18). -/

namespace Sys2Proof.Machine

/-- What a run of `COMP` reads: the parameters, `CAL[0..11]`, `RAW_T`, `RAW_P`
(42_compensation.md R140, R172). -/
structure CompIn where
  cfg : Config
  cal : CalSet
  raw : Raw
deriving DecidableEq, Repr

/-- What a stage of `COMP` writes: `STAGE`, the temporaries, `ZDEN`, `OVF`. -/
structure Pipe where
  stage : Stage
  tmp : Temps
  zden : Bool
  ovf : Bool
deriving DecidableEq, Repr

/-- Coefficient `k` as an operand (10_state.md R21). -/
def CompIn.coeff (c : CompIn) (k : Fin 12) : Flagged := Flagged.pure (coeffOperand c.cfg c.cal k)

/-- `RAW_T` as an operand (42_compensation.md R141). -/
def CompIn.rawT (c : CompIn) : Flagged := Flagged.pure (rawOperand c.raw.t)

/-- `RAW_P` as an operand (42_compensation.md R141). -/
def CompIn.rawP (c : CompIn) : Flagged := Flagged.pure (rawOperand c.raw.p)

/-- The constant `128000` (10_state.md R39). -/
def const128000 : W64 := 128000#64

/-- The constant `1048576 = 2^20` (10_state.md R39). -/
def const1048576 : W64 := 1048576#64

/-- The constant `3125` (10_state.md R39). -/
def const3125 : W64 := 3125#64

/-- The constant `2^47` (10_state.md R39). -/
def const2p47 : W64 := 140737488355328#64

/-! ### The right-hand sides, one per assignment of R150 to R166 -/

/-- `A` of `T_S1`: `sub64(sra64(RAW_T, 3), shl64(T1, 1))` (R150). -/
def exprA (rawT t1 : Flagged) : Flagged := (rawT.sra 3).sub (t1.shl 1)

/-- `V1` of `T_S1`: `sra64(mul64(A, T2), 11)` (R150). -/
def exprV1 (a t2 : Flagged) : Flagged := (a.mul t2).sra 11

/-- `B` of `T_S2`: `sub64(sra64(RAW_T, 4), T1)` (R151). -/
def exprB (rawT t1 : Flagged) : Flagged := (rawT.sra 4).sub t1

/-- `V2` of `T_S2`: `sra64(mul64(sra64(mul64(B, B), 12), T3), 14)` (R151). -/
def exprV2 (b t3 : Flagged) : Flagged := (((b.mul b).sra 12).mul t3).sra 14

/-- `FINE` of `T_S3`: `add64(V1, V2)` (R152). -/
def exprFine (v1 v2 : Flagged) : Flagged := v1.add v2

/-- `TNUM` of `T_S4`: `add64(mul64(FINE, T_MUL), T_RND)` (R153). -/
def exprTnum (fine tMul tRnd : Flagged) : Flagged := (fine.mul tMul).add tRnd

/-- `TCENTI` of `T_S4`: `sra64(TNUM, 8)` (R153). -/
def exprTcenti (tnum : Flagged) : Flagged := tnum.sra 8

/-- `X` of `P_S1`: `sub64(FINE, 128000)` (R154). -/
def exprX1 (fine : Flagged) : Flagged := fine.sub (Flagged.pure const128000)

/-- `Y` of `P_S2`: `mul64(mul64(X, X), P6)` (R155). -/
def exprY2 (x p6 : Flagged) : Flagged := (x.mul x).mul p6

/-- `Y` of `P_S3`: `add64(Y, shl64(mul64(X, P5), 17))` (R156). -/
def exprY3 (y x p5 : Flagged) : Flagged := y.add ((x.mul p5).shl 17)

/-- `Y` of `P_S4`: `add64(Y, shl64(P4, 35))` (R157). -/
def exprY4 (y p4 : Flagged) : Flagged := y.add (p4.shl 35)

/-- `X` of `P_S5`: `add64(sra64(mul64(mul64(X, X), P3), 8), shl64(mul64(X, P2), 12))` (R158). -/
def exprX5 (x p3 p2 : Flagged) : Flagged := (((x.mul x).mul p3).sra 8).add ((x.mul p2).shl 12)

/-- `X` of `P_S6`: `sra64(mul64(add64(2^47, X), P1), 33)` (R159). -/
def exprX6 (x p1 : Flagged) : Flagged := (((Flagged.pure const2p47).add x).mul p1).sra 33

/-- `P` of `P_S8`: `sub64(1048576, RAW_P)` (R162). -/
def exprP8 (rawP : Flagged) : Flagged := (Flagged.pure const1048576).sub rawP

/-- `P` of `P_S9`: `sdiv64(mul64(sub64(shl64(P, 31), Y), 3125), X)` (R163). -/
def exprP9 (p y x : Flagged) : Flagged :=
  (((p.shl 31).sub y).mul (Flagged.pure const3125)).sdiv x

/-- `X` of `P_S10`: `sra64(mul64(mul64(P9, sra64(P, 13)), sra64(P, 13)), 25)` (R164). -/
def exprX10 (p9 p : Flagged) : Flagged := ((p9.mul (p.sra 13)).mul (p.sra 13)).sra 25

/-- `Y` of `P_S11`: `sra64(mul64(P8, P), 19)` (R165). -/
def exprY11 (p8 p : Flagged) : Flagged := (p8.mul p).sra 19

/-- `P` of `P_S12`: `add64(sra64(add64(add64(P, X), Y), 8), shl64(P7, 4))` (R166). -/
def exprP12 (p x y p7 : Flagged) : Flagged := (((p.add x).add y).sra 8).add (p7.shl 4)

/-! ### The stages -/

/-- Stage `T_S1` (R150). -/
def pipeTS1 (c : CompIn) (p : Pipe) : Pipe :=
  let a := exprA c.rawT (c.coeff 0)
  let v1 := exprV1 a (c.coeff 1)
  { p with tmp := { p.tmp with a := a.val, v1 := v1.val }, ovf := p.ovf || v1.ovf, stage := .tS2 }

/-- Stage `T_S2` (R151). -/
def pipeTS2 (c : CompIn) (p : Pipe) : Pipe :=
  let b := exprB c.rawT (c.coeff 0)
  let v2 := exprV2 b (c.coeff 2)
  { p with tmp := { p.tmp with b := b.val, v2 := v2.val }, ovf := p.ovf || v2.ovf, stage := .tS3 }

/-- Stage `T_S3` (R152). -/
def pipeTS3 (p : Pipe) : Pipe :=
  let f := exprFine (Flagged.pure p.tmp.v1) (Flagged.pure p.tmp.v2)
  { p with tmp := { p.tmp with fine := f.val }, ovf := p.ovf || f.ovf, stage := .tS4 }

/-- Stage `T_S4` (R153). -/
def pipeTS4 (c : CompIn) (p : Pipe) : Pipe :=
  let n := exprTnum (Flagged.pure p.tmp.fine) (Flagged.pure c.cfg.tMul) (Flagged.pure c.cfg.tRnd)
  { p with
    tmp := { p.tmp with tnum := n.val, tcenti := (exprTcenti n).val }
    ovf := p.ovf || n.ovf
    stage := .pS1 }

/-- Stage `P_S1` (R154). -/
def pipePS1 (p : Pipe) : Pipe :=
  let x := exprX1 (Flagged.pure p.tmp.fine)
  { p with tmp := { p.tmp with x := x.val }, ovf := p.ovf || x.ovf, stage := .pS2 }

/-- Stage `P_S2` (R155). -/
def pipePS2 (c : CompIn) (p : Pipe) : Pipe :=
  let y := exprY2 (Flagged.pure p.tmp.x) (c.coeff 8)
  { p with tmp := { p.tmp with y := y.val }, ovf := p.ovf || y.ovf, stage := .pS3 }

/-- Stage `P_S3` (R156). -/
def pipePS3 (c : CompIn) (p : Pipe) : Pipe :=
  let y := exprY3 (Flagged.pure p.tmp.y) (Flagged.pure p.tmp.x) (c.coeff 7)
  { p with tmp := { p.tmp with y := y.val }, ovf := p.ovf || y.ovf, stage := .pS4 }

/-- Stage `P_S4` (R157). -/
def pipePS4 (c : CompIn) (p : Pipe) : Pipe :=
  let y := exprY4 (Flagged.pure p.tmp.y) (c.coeff 6)
  { p with tmp := { p.tmp with y := y.val }, ovf := p.ovf || y.ovf, stage := .pS5 }

/-- Stage `P_S5` (R158): the right-hand side reads the `X` of stage `P_S1`. -/
def pipePS5 (c : CompIn) (p : Pipe) : Pipe :=
  let x := exprX5 (Flagged.pure p.tmp.x) (c.coeff 5) (c.coeff 4)
  { p with tmp := { p.tmp with x := x.val }, ovf := p.ovf || x.ovf, stage := .pS6 }

/-- Stage `P_S6` (R159), the denominator term. -/
def pipePS6 (c : CompIn) (p : Pipe) : Pipe :=
  let x := exprX6 (Flagged.pure p.tmp.x) (c.coeff 3)
  { p with tmp := { p.tmp with x := x.val }, ovf := p.ovf || x.ovf, stage := .pS7 }

/-- Stage `P_S7` (R161), the guard: a zero denominator term gives pressure 0 and skips to `FCVT`. -/
def pipePS7 (p : Pipe) : Pipe :=
  if p.tmp.x = 0 then
    { p with tmp := { p.tmp with p := 0 }, zden := true, stage := .fcvt }
  else { p with stage := .pS8 }

/-- Stage `P_S8` (R162). -/
def pipePS8 (c : CompIn) (p : Pipe) : Pipe :=
  let q := exprP8 c.rawP
  { p with tmp := { p.tmp with p := q.val }, ovf := p.ovf || q.ovf, stage := .pS9 }

/-- Stage `P_S9` (R163), the division. -/
def pipePS9 (p : Pipe) : Pipe :=
  let q := exprP9 (Flagged.pure p.tmp.p) (Flagged.pure p.tmp.y) (Flagged.pure p.tmp.x)
  { p with tmp := { p.tmp with p := q.val }, ovf := p.ovf || q.ovf, stage := .pS10 }

/-- Stage `P_S10` (R164). -/
def pipePS10 (c : CompIn) (p : Pipe) : Pipe :=
  let x := exprX10 (c.coeff 11) (Flagged.pure p.tmp.p)
  { p with tmp := { p.tmp with x := x.val }, ovf := p.ovf || x.ovf, stage := .pS11 }

/-- Stage `P_S11` (R165). -/
def pipePS11 (c : CompIn) (p : Pipe) : Pipe :=
  let y := exprY11 (c.coeff 10) (Flagged.pure p.tmp.p)
  { p with tmp := { p.tmp with y := y.val }, ovf := p.ovf || y.ovf, stage := .pS12 }

/-- Stage `P_S12` (R166), the integer pressure result. -/
def pipePS12 (c : CompIn) (p : Pipe) : Pipe :=
  let q := exprP12 (Flagged.pure p.tmp.p) (Flagged.pure p.tmp.x) (Flagged.pure p.tmp.y) (c.coeff 9)
  { p with tmp := { p.tmp with p := q.val }, ovf := p.ovf || q.ovf, stage := .fcvt }

/-- Stage `FCVT` (R167), the final floating conversion. -/
def pipeFcvt (c : CompIn) (p : Pipe) : Pipe :=
  { p with
    tmp :=
      { p.tmp with
        tf := floatQuotient c.cfg.flt p.tmp.tnum c.cfg.tDiv
        pf := floatQuotient c.cfg.flt p.tmp.p c.cfg.pDiv }
    stage := .compCommit }

/-- One stage of the datapath (30_encoding.md R100, R101); nothing at a stage that is not of it. -/
def pipeStep (c : CompIn) (p : Pipe) : Pipe :=
  match p.stage with
  | .tS1 => pipeTS1 c p
  | .tS2 => pipeTS2 c p
  | .tS3 => pipeTS3 p
  | .tS4 => pipeTS4 c p
  | .pS1 => pipePS1 p
  | .pS2 => pipePS2 c p
  | .pS3 => pipePS3 c p
  | .pS4 => pipePS4 c p
  | .pS5 => pipePS5 c p
  | .pS6 => pipePS6 c p
  | .pS7 => pipePS7 p
  | .pS8 => pipePS8 c p
  | .pS9 => pipePS9 p
  | .pS10 => pipePS10 c p
  | .pS11 => pipePS11 c p
  | .pS12 => pipePS12 c p
  | .fcvt => pipeFcvt c p
  | .idle => p
  | .calParse => p
  | .calCheck => p
  | .calCommit => p
  | .rawDecode => p
  | .rawCheck => p
  | .rawCommit => p
  | .compCommit => p

/-- `n` stages of the datapath. -/
def pipeRun (c : CompIn) : Nat → Pipe → Pipe
  | 0, p => p
  | n + 1, p => pipeRun c n (pipeStep c p)

/-! ### The function computed (R169) -/

/-- What `Compensate` returns (42_compensation.md R169). -/
structure CompOut where
  res : Results
  zden : Bool
  ovf : Bool
deriving DecidableEq, Repr

/-- The fine temperature of a raw count and a Calibration Set, R150 to R152 composed. -/
def compensateFine (c : CompIn) : Flagged :=
  exprFine (exprV1 (exprA c.rawT (c.coeff 0)) (c.coeff 1)) (exprV2 (exprB c.rawT (c.coeff 0)) (c.coeff 2))

/-- `Y` after `P_S4` as a function of the fine temperature, R154 to R157 composed. -/
def compensateY (c : CompIn) (fine : Flagged) : Flagged :=
  let x := exprX1 fine
  exprY4 (exprY3 (exprY2 x (c.coeff 8)) x (c.coeff 7)) (c.coeff 6)

/-- The denominator term as a function of the fine temperature, R154, R158, R159 composed. -/
def compensateDenominator (c : CompIn) (fine : Flagged) : Flagged :=
  exprX6 (exprX5 (exprX1 fine) (c.coeff 5) (c.coeff 4)) (c.coeff 3)

/-- The pressure after the guard, R162 to R166 composed. -/
def compensatePressure (c : CompIn) (y x : Flagged) : Flagged :=
  let p := exprP9 (exprP8 c.rawP) y x
  exprP12 p (exprX10 (c.coeff 11) p) (exprY11 (c.coeff 10) p) (c.coeff 9)

/-- `Compensate(adcT, adcP, cal)` (42_compensation.md R169). -/
def compensate (c : CompIn) : CompOut :=
  let fine := compensateFine c
  let tnum := exprTnum fine (Flagged.pure c.cfg.tMul) (Flagged.pure c.cfg.tRnd)
  let tcenti := exprTcenti tnum
  let y := compensateY c fine
  let x := compensateDenominator c fine
  let guard := decide (x.val = 0)
  let p := if guard then Flagged.pure 0 else compensatePressure c y x
  { res :=
      { tFine := fine.val
        tNum := tnum.val
        tCenti := tcenti.val
        pQ := p.val
        tFlt := floatQuotient c.cfg.flt tnum.val c.cfg.tDiv
        pFlt := floatQuotient c.cfg.flt p.val c.cfg.pDiv }
    zden := guard
    ovf := tnum.ovf || y.ovf || x.ovf || p.ovf }

end Sys2Proof.Machine
end

