-- ==== Sys2Proof/Machine/Stages.lean ====
section
/-! DEFINITION. The stages of the sequencer as steps of the state: the three of `CALLD`
(40_calibration.md R122 to R124), the three of `RAWLD` (41_raw_decode.md R132 to R134), the datapath
stages of `COMP` and its commit (42_compensation.md R150 to R168). -/

namespace Sys2Proof.Machine

/-- Stage `CAL_PARSE` (40_calibration.md R122). -/
def stageCalParse (s : State) : State :=
  { s with tmp := { s.tmp with tcal := parseCal s.mem }, stage := .calCheck }

/-- The calibration is invalid: all 24 bytes `0xFF`, or `TCAL[0] = 0`, or `TCAL[3] = 0`
(40_calibration.md R123). -/
def calInvalid (s : State) : Bool :=
  calbufAllFF s.mem 24 || (s.tmp.tcal.t1 == 0x0000#16) || (s.tmp.tcal.p1 == 0x0000#16)

/-- Stage `CAL_CHECK` (40_calibration.md R123). -/
def stageCalCheck (s : State) : State :=
  if calInvalid s then (s.raiseError .invalidCalibration).forgetTemps
  else { s with stage := .calCommit }

/-- Stage `CAL_COMMIT` (40_calibration.md R124). -/
def stageCalCommit (s : State) : State :=
  (State.finish
    { s with cal := s.tmp.tcal, flags := { s.flags with calValid := true } }).forgetTemps

/-- Stage `RAW_DECODE` (41_raw_decode.md R132): the pressure triplet comes first. -/
def stageRawDecode (s : State) : State :=
  { s with
    tmp := { s.tmp with tp := rawTriplet s.mem 0, tt := rawTriplet s.mem 3 }
    stage := .rawCheck }

/-- Stage `RAW_CHECK` (41_raw_decode.md R133). -/
def stageRawCheck (s : State) : State :=
  if isSentinel s.tmp.tt || isSentinel s.tmp.tp then
    (s.raiseError .invalidRawReading).forgetTemps
  else { s with stage := .rawCommit }

/-- Stage `RAW_COMMIT` (41_raw_decode.md R134). -/
def stageRawCommit (s : State) : State :=
  (State.finish
    { s with
      raw := ⟨s.tmp.tt, s.tmp.tp⟩
      flags := { s.flags with rawValid := true } }).forgetTemps

/-- What the datapath reads of the state (42_compensation.md R140). -/
def State.compIn (s : State) : CompIn := ⟨s.cfg, s.cal, s.raw⟩

/-- What the datapath writes of the state. -/
def State.pipe (s : State) : Pipe := ⟨s.stage, s.tmp, s.flags.zden, s.flags.ovf⟩

/-- The state with what the datapath writes replaced. -/
def State.withPipe (s : State) (p : Pipe) : State :=
  { s with
    stage := p.stage
    tmp := p.tmp
    flags := { s.flags with zden := p.zden, ovf := p.ovf } }

/-- A datapath stage of `COMP`, `T_S1` to `FCVT` (42_compensation.md R150 to R167). -/
def stageDatapath (s : State) : State := s.withPipe (pipeStep s.compIn s.pipe)

/-- The result registers a commit writes (42_compensation.md R168). -/
def Temps.results (t : Temps) : Results := ⟨t.fine, t.tnum, t.tcenti, t.p, t.tf, t.pf⟩

/-- Stage `COMP_COMMIT` (42_compensation.md R168): the Raw Measurement is consumed. -/
def stageCompCommit (s : State) : State :=
  (State.finish
    { s with
      res := s.tmp.results
      raw := Raw.zero
      flags := { s.flags with resValid := true, rawValid := false } }).forgetTemps

end Sys2Proof.Machine
end

