-- ==== Sys2Proof/Machine/Sequencer.lean ====
section
/-! DEFINITION. The sequencer: one step per stage while `BUSY = 1` (30_encoding.md R100), and the start
of an accepted command, staged or with `STAGE_ATOMIC` (R103). -/

namespace Sys2Proof.Machine

/-- The step of the sequencer, when `BUSY = 1`: the stage that `STAGE` names (30_encoding.md R100). -/
def sequencerStep (s : State) : Host.Outcome State Fault Refusal :=
  match s.stage with
  | .idle => .fault .busyWithoutStage
  | .calParse => .next (stageCalParse s)
  | .calCheck => .next (stageCalCheck s)
  | .calCommit => .next (stageCalCommit s)
  | .rawDecode => .next (stageRawDecode s)
  | .rawCheck => .next (stageRawCheck s)
  | .rawCommit => .next (stageRawCommit s)
  | .tS1 => .next (stageDatapath s)
  | .tS2 => .next (stageDatapath s)
  | .tS3 => .next (stageDatapath s)
  | .tS4 => .next (stageDatapath s)
  | .pS1 => .next (stageDatapath s)
  | .pS2 => .next (stageDatapath s)
  | .pS3 => .next (stageDatapath s)
  | .pS4 => .next (stageDatapath s)
  | .pS5 => .next (stageDatapath s)
  | .pS6 => .next (stageDatapath s)
  | .pS7 => .next (stageDatapath s)
  | .pS8 => .next (stageDatapath s)
  | .pS9 => .next (stageDatapath s)
  | .pS10 => .next (stageDatapath s)
  | .pS11 => .next (stageDatapath s)
  | .pS12 => .next (stageDatapath s)
  | .fcvt => .next (stageDatapath s)
  | .compCommit => .next (stageCompCommit s)

/-- A turn given to the sequencer: it has a step exactly when `BUSY = 1` (30_encoding.md R100), and no
turn of an agent that is not enabled changes anything (log entry 1). -/
def sequencerTurn (s : State) : Host.Outcome State Fault Refusal :=
  if s.flags.busy then sequencerStep s else .next s

/-- `n` turns of the sequencer with no host step between them. -/
def sequencerTurns : Nat → State → Host.Outcome State Fault Refusal
  | 0, s => .next s
  | n + 1, s =>
    match sequencerTurn s with
    | .next t => sequencerTurns n t
    | .fault f => .fault f
    | .refused r => .refused r

/-- The most stages a command has, those of `COMP` (30_encoding.md R102). -/
def maxStages : Nat := 18

/-- What the accept step of a staged command answers: the accepted state, or with `STAGE_ATOMIC` the
state after all its stages (30_encoding.md R103, log entry 15). -/
def launch (s : State) : Host.Outcome State Fault Refusal :=
  if s.cfg.stageAtomic then sequencerTurns maxStages s else .next s

end Sys2Proof.Machine
end

