-- ==== Sys2Proof/Machine/Engine.lean ====
section
/-! DEFINITION. The staged engine commands `CALLD`, `RAWLD`, `COMP`: the order of the accept tests
(30_encoding.md R99) and their accept rules (40_calibration.md R121, 41_raw_decode.md R131,
42_compensation.md R148). -/

namespace Sys2Proof.Machine

/-- The engine tests of the accept step, before the command's own rule: `BUSY = 1` drops the word with
`CMDOVR`, then `FAILED = 1` drops it (30_encoding.md R99, 60_exceptions.md R236). -/
def engineGate (s : State) (accepted : Host.Outcome State Fault Refusal) :
    Host.Outcome State Fault Refusal :=
  if s.flags.busy then .next s.setCmdovr
  else if s.flags.failed then .next s
  else accepted

/-- Accept of `CALLD` (40_calibration.md R121). -/
def acceptCalld (s : State) : Host.Outcome State Fault Refusal :=
  if s.flags.calValid then .next (s.raiseError .calLocked)
  else launch (s.accept .calParse)

/-- `CALLD` (40_calibration.md R120). -/
def execCalld (s : State) : Host.Outcome State Fault Refusal := engineGate s (acceptCalld s)

/-- What an accepted `RAWLD` clears and sets (41_raw_decode.md R131). -/
def State.startRawld (s : State) : State :=
  State.accept { s with raw := Raw.zero, flags := { s.flags with rawValid := false } } .rawDecode

/-- Accept of `RAWLD` (41_raw_decode.md R131). -/
def acceptRawld (s : State) : Host.Outcome State Fault Refusal :=
  if s.flags.calValid then launch s.startRawld
  else .next (s.raiseError .notReady)

/-- `RAWLD` (41_raw_decode.md R130). -/
def execRawld (s : State) : Host.Outcome State Fault Refusal := engineGate s (acceptRawld s)

/-- What an accepted `COMP` clears and sets (42_compensation.md R148). -/
def State.startComp (s : State) : State :=
  State.accept
    { s with
      res := Results.zero
      flags := { s.flags with resValid := false, zden := false, ovf := false } } .tS1

/-- Accept of `COMP` (42_compensation.md R148): `CAL_VALID` is tested before `RAW_VALID`. -/
def acceptComp (s : State) : Host.Outcome State Fault Refusal :=
  if !s.flags.calValid then .next (s.raiseError .notReady)
  else if !s.flags.rawValid then .next (s.raiseError .rawMissing)
  else launch s.startComp

/-- `COMP` (42_compensation.md R140). -/
def execComp (s : State) : Host.Outcome State Fault Refusal := engineGate s (acceptComp s)

end Sys2Proof.Machine
end

