-- ==== Sys2Proof/Machine/Lock.lean ====
section
/-! DEFINITION. The lock commands `LOCK_TRY`, `LOCK_REL` (43_lock.md R192, R194) and the malformed lock
word (R195): performed whole in the host step, whatever `BUSY` and `FAILED` are. -/

namespace Sys2Proof.Machine

/-- A malformed lock word: `LOCKVIOL <- 1` and nothing else (43_lock.md R195). -/
def malformedLock (s : State) : Host.Outcome State Fault Refusal := .next s.setLockviol

/-- The try-acquire of rule R192 for agent `a`: a free cell is taken, a held one is left alone. -/
def State.tryLock (s : State) (a : Byte) : State :=
  if s.lock.held then s else { s with lock := ⟨true, a⟩ }

/-- The release of rule R194 by agent `a`: only the owner frees the cell. -/
def State.releaseLock (s : State) (a : Byte) : State :=
  if s.lock.held && (s.lock.owner == a) then { s with lock := LockCell.zero } else s.setLockviol

/-- `LOCK_TRY a` (43_lock.md R192). The ill-formed agent 0 is the malformed word it encodes to
(R195, log entry 9). -/
def execLockTry (a : Byte) (s : State) : Host.Outcome State Fault Refusal :=
  if agentOk a then .next (s.tryLock a) else malformedLock s

/-- `LOCK_REL a` (43_lock.md R194). The ill-formed agent 0 is the malformed word it encodes to
(R195, log entry 9). -/
def execLockRel (a : Byte) (s : State) : Host.Outcome State Fault Refusal :=
  if agentOk a then .next (s.releaseLock a) else malformedLock s

end Sys2Proof.Machine
end

