-- ==== Sys2Proof/Machine/Control.lean ====
section
/-! DEFINITION. The control commands `NOP`, `CLRERR`, `SRESET` (44_control.md R211 to R213) and the
illegal word (60_exceptions.md R228). -/

namespace Sys2Proof.Machine

/-- `NOP`: nothing changes (44_control.md R211). -/
def execNop (s : State) : Host.Outcome State Fault Refusal := .next s

/-- `CLRERR` (44_control.md R212). -/
def execClrerr (s : State) : Host.Outcome State Fault Refusal := engineGate s (.next s.clearError)

/-- `SRESET`: at any time, aborting a command in its stages (44_control.md R213). -/
def execSreset (s : State) : Host.Outcome State Fault Refusal := .next s.softReset

/-- An illegal word: `IllegalCommand(8)` when it reaches the engine (60_exceptions.md R228,
30_encoding.md R99). -/
def illegalCommand (s : State) : Host.Outcome State Fault Refusal :=
  engineGate s (.next (s.raiseError .illegalCommand))

end Sys2Proof.Machine
end

