-- ==== Sys2Proof/Machine/Dispatch.lean ====
section
/-! DEFINITION. The dispatch from a command to its meaning (30_encoding.md R93, R99). -/

namespace Sys2Proof.Machine

def exec (i : Instr) (s : State) : Host.Outcome State Fault Refusal :=
  match i with
  | .nop => Sys2Proof.Machine.execNop s
  | .calld => Sys2Proof.Machine.execCalld s
  | .rawld => Sys2Proof.Machine.execRawld s
  | .comp => Sys2Proof.Machine.execComp s
  | .clrerr => Sys2Proof.Machine.execClrerr s
  | .sreset => Sys2Proof.Machine.execSreset s
  | .lockTry a => Sys2Proof.Machine.execLockTry a s
  | .lockRel a => Sys2Proof.Machine.execLockRel a s

end Sys2Proof.Machine
end

