-- ==== Sys2Proof/Machine/Window.lean ====
section
/-! DEFINITION. The register window: the write to `CMD` (30_encoding.md R99), the register map
(10_state.md R40), and the two access primitives `MemRead`, `MemWrite` with their legal sizes
(20_memory.md R62 to R68). -/

namespace Sys2Proof.Machine

/-- A command word written to `CMD` (30_encoding.md R99). -/
def commandWrite (w : Word) (s : State) : Host.Outcome State Fault Refusal :=
  match decode w with
  | .ok i => exec i s
  | .error .malformedLock => malformedLock s
  | .error .illegal => illegalCommand s
  | .error .short => illegalCommand s

/-- The low word of a 64-bit register (10_state.md R26). -/
def lowWord (v : W64) : Word := v.extractLsb' 0 32

/-- The high word of a 64-bit register (10_state.md R26). -/
def highWord (v : W64) : Word := v.extractLsb' 32 32

/-- The four-byte register word at an offset that is a multiple of 4 (10_state.md R40); reserved offsets
read 0 (R41), and so does `CMD` (R28). The buffer words are not here, they are bytes of the memory. -/
def registerWord (s : State) (off : Nat) : Word :=
  match off with
  | 0x04 => statusWord s.flags s.stage
  | 0x08 => causeWord s.cause
  | 0x0C => lockWord s.lock
  | 0x30 => s.raw.t.zeroExtend 32
  | 0x34 => s.raw.p.zeroExtend 32
  | 0x38 => lowWord s.res.tFine
  | 0x3C => highWord s.res.tFine
  | 0x40 => lowWord s.res.tNum
  | 0x44 => highWord s.res.tNum
  | 0x48 => lowWord s.res.tCenti
  | 0x4C => highWord s.res.tCenti
  | 0x50 => lowWord s.res.pQ
  | 0x54 => highWord s.res.pQ
  | 0x58 => s.res.tFlt
  | 0x5C => s.res.pFlt
  | 0x60 => coeffWord s.cfg s.cal 0
  | 0x64 => coeffWord s.cfg s.cal 1
  | 0x68 => coeffWord s.cfg s.cal 2
  | 0x6C => coeffWord s.cfg s.cal 3
  | 0x70 => coeffWord s.cfg s.cal 4
  | 0x74 => coeffWord s.cfg s.cal 5
  | 0x78 => coeffWord s.cfg s.cal 6
  | 0x7C => coeffWord s.cfg s.cal 7
  | 0x80 => coeffWord s.cfg s.cal 8
  | 0x84 => coeffWord s.cfg s.cal 9
  | 0x88 => coeffWord s.cfg s.cal 10
  | 0x8C => coeffWord s.cfg s.cal 11
  | _ => 0

/-- One byte of the window (10_state.md R40, 20_memory.md R64). -/
def windowByte (s : State) (a : Nat) : Byte :=
  if isBufferByte a then Memory.read s.mem a
  else byteOf (registerWord s (a / 4 * 4)) (a % 4)

/-- One past the last offset of the buffer region, which ends with two reserved bytes
(20_memory.md R63). -/
def bufferRegionEnd : Nat := 0x30

/-- The size of the window (20_memory.md R60). -/
def windowSize : Nat := 256

/-- The legal accesses (20_memory.md R63): in the buffer region 1, 2 or 4 bytes at a multiple of the
size, everywhere else in the window 4 bytes at a multiple of 4. -/
def legalAccess (off n : Nat) : Bool :=
  if calbufBase ≤ off ∧ off < bufferRegionEnd then
    (n == 1 || n == 2 || n == 4) && (off % n == 0)
  else (n == 4) && (off % 4 == 0) && decide (off + n ≤ windowSize)

/-- The `n` bytes of the window from `off` on. -/
def windowBytes (s : State) (off : Nat) : Nat → List Byte
  | 0 => []
  | n + 1 => windowByte s off :: windowBytes s (off + 1) n

/-- `MemRead(off, n)` (20_memory.md R62): the value read, or none where the access gets a bus error. -/
def memRead (s : State) (off n : Nat) : Option Word :=
  if legalAccess off n then some (bytesWord (windowBytes s off n)) else none

/-- The `n` bytes of `v` stored from `off` on, low byte first; offsets that are no buffer byte are
ignored (20_memory.md R64, R67). -/
def storeBytes (m : List Host.Cell) (off : Nat) (v : Word) : Nat → List Host.Cell
  | 0 => m
  | n + 1 =>
    let m' := storeBytes m off v n
    if isBufferByte (off + n) then Memory.write m' (off + n) (byteOf v n) else m'

/-- A write in the buffer region: dropped with `CMDOVR` while `BUSY = 1` if it addresses a byte of
`CALBUF` or `RAWBUF` (20_memory.md R67), ignored if it addresses reserved bytes only (10_state.md R41,
log entry 11). -/
def bufferWrite (s : State) (off n : Nat) (v : Word) : State :=
  if isBufferByte off then
    if s.flags.busy then s.setCmdovr else { s with mem := storeBytes s.mem off v n }
  else s

/-- `MemWrite(off, n, v)` (20_memory.md R62, R63, R68): a bus error changes nothing; `CMD` takes a
command; the buffers take bytes; every other offset ignores the write. The response is the model's
record (log entry 10). -/
def memWrite (s : State) (off n : Nat) (v : Word) : Host.Outcome State Fault Refusal :=
  if legalAccess off n then
    if off = 0 then commandWrite v (s.withResp .ack)
    else if calbufBase ≤ off ∧ off < bufferRegionEnd then
      .next (bufferWrite (s.withResp .ack) off n v)
    else .next (s.withResp .ack)
  else .next (s.withResp .busError)

/-- The response to a read (20_memory.md R63, log entry 10). -/
def readResponse (s : State) (off n : Nat) : Response :=
  match memRead s off n with
  | some v => .value n v
  | none => .busError

/-- One host access to the window (20_memory.md R62). A read has no side effect on the block (R68). -/
def hostAccess (a : Access) (s : State) : Host.Outcome State Fault Refusal :=
  match a with
  | .read off n => .next (s.withResp (readResponse s off n))
  | .write off n v => memWrite s off n v

/-! ### The window on the host bus -/

/-- The address or offset an access starts at. -/
def Access.start : Access → Nat
  | .read off _ => off
  | .write off _ _ => off

/-- The number of bytes of an access. -/
def Access.size : Access → Nat
  | .read _ n => n
  | .write _ n _ => n

/-- The same access at another place. -/
def Access.moveTo (a : Access) (off : Nat) : Access :=
  match a with
  | .read _ n => .read off n
  | .write _ n v => .write off n v

/-- The window access that an access at a host-bus byte address is, if it starts in the 256 bytes at
`BASE` (20_memory.md R60). -/
def windowAccess (cfg : Config) (a : Access) : Option Access :=
  if cfg.baseAddress ≤ a.start ∧ a.start < cfg.baseAddress + windowSize then some (a.moveTo (a.start - cfg.baseAddress))
  else none

/-- An access at a host-bus byte address: one that starts in the window is a window access; one that
starts below and reaches into it gets the bus error of an access that leaves the window
(20_memory.md R63); any other is not the block's (R71, log entry 20). -/
def addressAccess (a : Access) (s : State) : Host.Outcome State Fault Refusal :=
  match windowAccess s.cfg a with
  | some b => hostAccess b s
  | none =>
    if a.start < s.cfg.baseAddress ∧ s.cfg.baseAddress < a.start + a.size then .next (s.withResp .busError)
    else .next s

end Sys2Proof.Machine
end

