-- ==== Sys2Proof/Machine/Hosts.lean ====
section
/-! DEFINITION. The agents outside the engine: host threads that run the program lines and
pseudo-instructions of 30_encoding.md R104, R105 and 43_lock.md R196, R197, the recorded operations of the
bus transport (70_reset_and_hazards.md R270), and the event the outside world chooses next
(00_scope.md R10, R11). -/

namespace Sys2Proof.Machine

/-- `RD64 off` (30_encoding.md R105). -/
def rd64 (off : Nat) : List Line := [.rd off, .rd (off + 4)]

/-- The value of `RD64`: `{second, first}` (30_encoding.md R105). -/
def Thread.value64 (th : Thread) : W64 := th.r ++ th.rPrev

/-- `WR` lines that store a list of bytes from `off` on, four at a time (the words of `LDCAL`). -/
def wrBytes : Nat → List Byte → List Line
  | off, b0 :: b1 :: b2 :: b3 :: rest => .wr off (bytesWord [b0, b1, b2, b3]) :: wrBytes (off + 4) rest
  | _, _ => []

/-- `LDCAL b0, ..., b23` (30_encoding.md R105): six `WR` lines for 24 bytes. -/
def ldcal (bytes : List Byte) : List Line := wrBytes calbufBase bytes

/-- `LDRAW b0, ..., b5` (30_encoding.md R105). -/
def ldraw (b0 b1 b2 b3 b4 b5 : Byte) : List Line :=
  [.wr rawbufBase (bytesWord [b0, b1, b2, b3]), .wrh (rawbufBase + 4) (b5 ++ b4)]

/-- The value of `LOCK` that says agent `a` owns it: `0x80000000 | a` (43_lock.md R193). -/
def grantedWord (a : Byte) : Word := 0x80000000#32 ||| a.zeroExtend 32

/-- The window access a line performs; a bus line performs none (30_encoding.md R104, R105). -/
def Line.access : Line → Option Access
  | .wr off v => some (.write off 4 v)
  | .wrh off v => some (.write off 2 (v.zeroExtend 32))
  | .wrb off v => some (.write off 1 (v.zeroExtend 32))
  | .rd off => some (.read off 4)
  | .cmd i => some (.write 0 4 (encode i))
  | .bus _ => none
  | .lockAcq a => some (.write 0 4 (encode (.lockTry a)))
  | .lockAcqRead _ => some (.read 0x0C 4)
  | .lockTryN a _ => some (.write 0 4 (encode (.lockTry a)))
  | .lockTryNRead _ _ => some (.read 0x0C 4)
  | .wait => some (.read 0x04 4)

/-- The value a thread takes from a response; a bus error or an acknowledgement gives none and leaves
`r` (what a host does with a bus error is outside the spec, 20_memory.md R63; log entry 13). -/
def Thread.readValue (th : Thread) : Response → Word
  | .value _ v => v
  | .none => th.r
  | .ack => th.r
  | .busError => th.r

/-- The thread with `v` read and `prog` to do. -/
def Thread.took (th : Thread) (v : Word) (prog : List Line) : Thread :=
  { th with prog := prog, r := v, rPrev := th.r }

/-- The thread after its line got the response `resp`, with `rest` behind the line: the loops of
`LOCK_ACQ`, `LOCK_TRYN` and `WAIT` turn here (30_encoding.md R105, 43_lock.md R196, R197). -/
def Thread.resume (th : Thread) (l : Line) (rest : List Line) (resp : Response) : Thread :=
  let v := th.readValue resp
  match l with
  | .wr _ _ => { th with prog := rest }
  | .wrh _ _ => { th with prog := rest }
  | .wrb _ _ => { th with prog := rest }
  | .rd _ => th.took v rest
  | .cmd _ => { th with prog := rest }
  | .bus _ => { th with prog := rest }
  | .lockAcq a => { th with prog := .lockAcqRead a :: rest }
  | .lockAcqRead a =>
    if v = grantedWord a then { th.took v rest with result := some .granted }
    else th.took v (.lockAcq a :: rest)
  | .lockTryN a n => { th with prog := .lockTryNRead a (n - 1) :: rest }
  | .lockTryNRead a m =>
    if v = grantedWord a then { th.took v rest with result := some .granted }
    else if m = 0 then { th.took v rest with result := some .busy }
    else th.took v (.lockTryN a m :: rest)
  | .wait => if v.getLsbD 0 then th.took v (.wait :: rest) else th.took v rest

/-- The next line of a thread performed on the block: one window access, or one bus operation recorded
under the thread's identifier (30_encoding.md R104). -/
def performLine (k : Nat) (th : Thread) (l : Line) (rest : List Line) (s : State) :
    Host.Outcome State Fault Refusal :=
  match l with
  | .bus op => .next ((s.withThread k (th.resume l rest s.env.resp)).logBus th.agent op)
  | _ =>
    match l.access with
    | none => .next s
    | some a =>
      match hostAccess a s with
      | .next t => .next (t.withThread k (th.resume l rest t.env.resp))
      | .fault f => .fault f
      | .refused r => .refused r

/-- A turn given to host thread `k`; a thread that is absent or has ended is not enabled, and nothing
changes (log entry 1). -/
def threadTurn (k : Nat) (s : State) : Host.Outcome State Fault Refusal :=
  match s.env.threads[k]? with
  | none => .next s
  | some th =>
    match th.prog with
    | [] => .next s
    | l :: rest => performLine k th l rest s

/-- One event of the outside world's choosing (00_scope.md R10, R11). -/
def perform (e : Event) (s : State) : Host.Outcome State Fault Refusal :=
  match e with
  | .sequencer => sequencerTurn s
  | .access a => hostAccess a s
  | .address a => addressAccess a s
  | .thread k => threadTurn k s
  | .bus a op => .next (s.logBus a op)
  | .hardReset => .next s.hardReset

/-- The command word an access delivers to `CMD`: a 4-byte write at offset 0 (30_encoding.md R90). -/
def Access.commandWord : Access → Option Word
  | .read _ _ => none
  | .write off n v => if off = 0 ∧ n = 4 then some v else none

/-- The window access an event performs in state `s`. -/
def Event.accessIn (s : State) : Event → Option Access
  | .sequencer => none
  | .access a => some a
  | .address a => windowAccess s.cfg a
  | .thread k =>
    match s.env.threads[k]? with
    | none => none
    | some th => th.prog.head?.bind Line.access
  | .bus _ _ => none
  | .hardReset => none

/-- The agent whose bus operation an event records in state `s`. -/
def Event.busAgentIn (s : State) : Event → Option Byte
  | .sequencer => none
  | .access _ => none
  | .address _ => none
  | .thread k =>
    match s.env.threads[k]? with
    | none => none
    | some th =>
      match th.prog.head? with
      | some (.bus _) => some th.agent
      | _ => none
  | .bus a _ => some a
  | .hardReset => none

end Sys2Proof.Machine
end

