-- ==== Sys2Proof/Machine/Step.lean ====
section
/-! DEFINITION. One step of the machine: the next event of the input list; behind the list the next event
of the free order, for ever; and where no host is to act again the one agent that is enabled by the state
alone, the sequencer while `BUSY = 1` (00_scope.md R11, log entry 1); and how a command word is placed where the next step takes it (log entry 2). -/

namespace Sys2Proof.Machine

/-- One step. With no host to act again and `BUSY = 0` nothing executes: "nothing executes until a host
writes a command" (70_reset_and_hazards.md R261). -/
def step (s : State) : Host.Outcome State Fault Refusal :=
  match s.env.inputs with
  | e :: rest => perform e (s.withInputs rest)
  | [] =>
    match s.env.order with
    | none => sequencerTurn s
    | some n => perform (Config.schedule n) (s.withOrder (some (n + 1)))

/-- The state with the command word `w` placed as the next host step's write to `CMD`
(30_encoding.md R90), the bits above `nbits` zero (log entry 2). -/
def State.withFetchWord (s : State) (nbits w : Nat) : State :=
  s.withInputs
    (.access (.write 0 4 (BitVec.ofNat 32 (tableBits nbits w))) :: s.env.inputs)

end Sys2Proof.Machine
end

