-- ==== Sys2Proof/Safety.lean ====
section
/-! DEFINITION. The terms of the safety claims: the invariant of the block's state, the trace a run of
`COMP` follows, who owns and who frees the lock, runs, and the host duties of
70_reset_and_hazards.md R285 that the block does not enforce. -/

namespace Sys2Proof.Machine

/-! ### Life cycle and stages -/

/-- The engine's life-cycle state (10_state.md R44). -/
inductive LifeCycle where
  | uninit
  | ready
  | failed
deriving DecidableEq, Repr

/-- The life-cycle state read off `CAL_VALID` and `FAILED` (10_state.md R44). -/
def Flags.lifeCycle (f : Flags) : LifeCycle :=
  if f.failed then .failed else if f.calValid then .ready else .uninit

/-- The command a stage belongs to (30_encoding.md R100). -/
def Stage.command : Stage → Option Instr
  | .idle => none
  | .calParse => some .calld
  | .calCheck => some .calld
  | .calCommit => some .calld
  | .rawDecode => some .rawld
  | .rawCheck => some .rawld
  | .rawCommit => some .rawld
  | .tS1 => some .comp
  | .tS2 => some .comp
  | .tS3 => some .comp
  | .tS4 => some .comp
  | .pS1 => some .comp
  | .pS2 => some .comp
  | .pS3 => some .comp
  | .pS4 => some .comp
  | .pS5 => some .comp
  | .pS6 => some .comp
  | .pS7 => some .comp
  | .pS8 => some .comp
  | .pS9 => some .comp
  | .pS10 => some .comp
  | .pS11 => some .comp
  | .pS12 => some .comp
  | .fcvt => some .comp
  | .compCommit => some .comp

/-- Twelve coefficients of a block whose 24 bytes are all `0xFF`. -/
def CalSet.allFF : CalSet :=
  ⟨0xFFFF, 0xFFFF, 0xFFFF, 0xFFFF, 0xFFFF, 0xFFFF, 0xFFFF, 0xFFFF, 0xFFFF, 0xFFFF, 0xFFFF, 0xFFFF⟩

/-! ### The invariant -/

/-- The invariant of the block: every step of the machine keeps it and reset meets it. -/
structure Inv (s : State) : Prop where
  /-- The buffer memory is in its canonical form. -/
  memCanonical : Memory.wf s.mem = true
  /-- "`STAGE = 0x00` (`IDLE`) exactly when `BUSY = 0`" (10_state.md R35). -/
  idleIffNotBusy : s.stage = .idle ↔ s.flags.busy = false
  /-- "At most one of the three is 1" (10_state.md R30). -/
  atMostOne :
    (s.flags.busy && s.flags.done) = false ∧ (s.flags.busy && s.flags.err) = false ∧
      (s.flags.done && s.flags.err) = false
  /-- The invariant of the coefficient file (10_state.md R24). -/
  calGood : s.flags.calValid = true → s.cal.t1 ≠ 0 ∧ s.cal.p1 ≠ 0 ∧ s.cal ≠ CalSet.allFF
  /-- The file is written only by `CAL_COMMIT` and cleared by reset (10_state.md R23). -/
  calClear : s.flags.calValid = false → s.cal = CalSet.zero
  /-- "`CAL_VALID` and `FAILED` are never both 1" (10_state.md R44). -/
  notReadyAndFailed : (s.flags.calValid && s.flags.failed) = false
  /-- In state `FAILED` the fatal error stays shown (60_exceptions.md R233). -/
  failedShown : s.flags.failed = true → s.flags.err = true ∧ s.cause = ErrorKind.invalidCalibration.code
  /-- Neither raw register holds a sentinel (10_state.md R25). -/
  rawGood : s.flags.rawValid = true → isSentinel s.raw.t = false ∧ isSentinel s.raw.p = false
  /-- The raw registers are 0 unless they hold a measurement not yet consumed (10_state.md R25). -/
  rawClear : s.flags.rawValid = false → s.raw = Raw.zero
  /-- A Raw Measurement is only ever loaded after calibration (41_raw_decode.md R131). -/
  rawNeedsCal : s.flags.rawValid = true → s.flags.calValid = true
  /-- The result registers are 0 unless they hold the results of the last `COMP` (10_state.md R26). -/
  resClear : s.flags.resValid = false → s.res = Results.zero
  /-- The flags only `COMP` sets come after a Calibration Set is loaded (42_compensation.md R148). -/
  compFlagsNeedCal :
    (s.flags.resValid || s.flags.zden || s.flags.ovf) = true → s.flags.calValid = true
  /-- "`HELD = 0` exactly when `OWNER = 0x00`" (43_lock.md R190). -/
  lockCell : s.lock.held = false ↔ s.lock.owner = 0
  /-- `CAUSE` is "`0` when `ERR = 0`" (10_state.md R36), and a block code otherwise. -/
  causeClear : s.flags.err = false → s.cause = 0
  causeCode : s.flags.err = true → ∃ e : ErrorKind, e.raisedByBlock = true ∧ s.cause = e.code
  /-- While `CALLD` runs no set is loaded. -/
  calStages : s.stage.command = some .calld → s.flags.calValid = false
  /-- After `CAL_PARSE` the temporaries are the parse of the buffer, which nothing changes meanwhile. -/
  calParsed : s.stage = .calCheck ∨ s.stage = .calCommit → s.tmp.tcal = parseCal s.mem
  /-- `CAL_COMMIT` is reached only by a valid block (40_calibration.md R123). -/
  calChecked : s.stage = .calCommit → calInvalid s = false
  /-- While `RAWLD` runs the set is loaded and the raw pair is cleared. -/
  rawStages :
    s.stage.command = some .rawld → s.flags.calValid = true ∧ s.flags.rawValid = false
  /-- `RAW_COMMIT` is reached only without a sentinel (41_raw_decode.md R133). -/
  rawChecked :
    s.stage = .rawCommit → isSentinel s.tmp.tt = false ∧ isSentinel s.tmp.tp = false
  /-- While `COMP` runs its inputs are valid and the old results are gone. -/
  compStages :
    s.stage.command = some .comp →
      s.flags.calValid = true ∧ s.flags.rawValid = true ∧ s.flags.resValid = false
  /-- "`X != 0` holds here by rule R161" (42_compensation.md R163). -/
  divisorNonZero : s.stage = .pS8 ∨ s.stage = .pS9 → s.tmp.x ≠ 0
  /-- The guard leaves pressure 0 behind it (42_compensation.md R161). -/
  zdenStages :
    s.flags.zden = true → s.stage.command = some .comp →
      (s.stage = .fcvt ∨ s.stage = .compCommit) ∧ s.tmp.p = 0
  /-- A guarded pressure is 0 (10_state.md R32). -/
  zdenResult : s.flags.zden = true → s.flags.resValid = true → s.res.pQ = 0

/-- A run of `COMP` is on its trace: what it has written so far is what the datapath stages write from
`T_S1` on, from the inputs alone and some contents of the temporaries (42_compensation.md R172). -/
def OnTrace (s : State) : Prop :=
  s.stage.command = some .comp →
    ∃ (n : Nat) (t₀ : Temps), pipeRun s.compIn n ⟨.tS1, t₀, false, false⟩ = s.pipe

/-- The state after a datapath stage that wrote the temporaries `tm`, with `o` the overflows of its
primitives, and goes to `st`: nothing else changes (42_compensation.md R150 to R166). -/
def State.afterStage (s : State) (tm : Temps) (o : Bool) (st : Stage) : State :=
  { s with tmp := tm, flags := { s.flags with ovf := s.flags.ovf || o }, stage := st }

/-! ### What a step does, seen from outside -/

/-- The event the next step performs, if the outside world has one. -/
def State.nextEvent (s : State) : Option Event :=
  match s.env.inputs with
  | e :: _ => some e
  | [] => s.env.order.map Config.schedule

/-- The window access the next step performs. -/
def State.nextAccess (s : State) : Option Access := s.nextEvent.bind (Event.accessIn s)

/-- The command word the next step writes to `CMD`. -/
def State.nextCommand (s : State) : Option Word := s.nextAccess.bind Access.commandWord

/-- The agent whose bus operation the next step records. -/
def State.nextBusAgent (s : State) : Option Byte := s.nextEvent.bind (Event.busAgentIn s)

/-- The sequencer has the next step: the event is its turn, or there is none. -/
def State.sequencerNext (s : State) : Bool :=
  decide (s.nextEvent = some .sequencer) || decide (s.nextEvent = none)

/-- Agent `a` owns the lock (43_lock.md R193). -/
def OwnedBy (a : Byte) (s : State) : Prop := s.lock = ⟨true, a⟩

/-- The next step frees the lock under agent `a`: `LOCK_REL a` or a hardware reset (43_lock.md R198). -/
def FreesLock (a : Byte) (s : State) : Prop :=
  s.nextEvent = some .hardReset ∨ ∃ w, s.nextCommand = some w ∧ decode w = .ok (.lockRel a)

/-- `σ 0` to `σ n` are the states of a run of `n` steps. -/
def Run (σ : Nat → State) (n : Nat) : Prop := ∀ i, i < n → step (σ i) = .next (σ (i + 1))

/-- The state with `e` chosen as the next event: "the choice of which enabled agent steps next" is a
parameter of the step relation (10_state.md R43). -/
def State.choosing (s : State) (e : Event) : State := s.withInputs [e]

/-- An endless run in the order `ord`: before each step the outside world chooses its event, whichever it
likes (00_scope.md R11). -/
def EndlessRun (ord : Nat → Event) (σ : Nat → State) : Prop :=
  ∀ i, step ((σ i).choosing (ord i)) = .next (σ (i + 1))

/-- Weak fairness of the sequencer, "the only progress assumption a claim may use" (00_scope.md R11):
"while `BUSY = 1` the sequencer eventually steps". -/
def SequencerFair (ord : Nat → Event) (σ : Nat → State) : Prop :=
  ∀ i, (∀ j, i ≤ j → (σ j).flags.busy = true) → ∃ j, i ≤ j ∧ ord j = .sequencer

/-- The promise of `LOCK_FAIR = true` on an endless run (00_scope.md R8, 43_lock.md R199): an agent that
tries again and again owns the lock some time later. With `false`, the default, nothing is promised.
DESIGN CHOICE (log entry 16, unsafe): R199 "does not describe further" what `true` promises; here it is
promised even where the owner never releases, so such a run, a hang by R196 and R202, is not fair. -/
def FairRun (ord : Nat → Event) (σ : Nat → State) : Prop :=
  (σ 0).cfg.lockFair = true → ∀ a : Byte,
    (∀ i, ∃ j, i ≤ j ∧ ∃ w, ((σ j).choosing (ord j)).nextCommand = some w ∧
      decode w = .ok (.lockTry a)) →
      ∀ i, ∃ j, i ≤ j ∧ OwnedBy a (σ j)

/-! ### Host duties (70_reset_and_hazards.md R285), premises of claims about whole systems -/

/-- Bus operations only while the agent owns the lock (R271). -/
def BusDuty (s : State) : Prop := ∀ a, s.nextBusAgent = some a → OwnedBy a s

/-- Distinct agent identifiers, each of `AGENT_IDS` (R278, 43_lock.md R191, 00_scope.md R8). -/
def AgentDuty (s : State) : Prop :=
  (s.env.threads.map Thread.agent).Nodup ∧ ∀ th ∈ s.env.threads, s.cfg.agentIds.has th.agent = true

/-- No hardware reset while the lock is held (R260). -/
def ResetDuty (s : State) : Prop := s.nextEvent = some .hardReset → s.lock.held = false

/-- A word the engine drops while `BUSY = 1`: `CALLD`, `RAWLD`, `COMP`, `CLRERR` or an illegal one
(R280). -/
def droppedWhileBusy (w : Word) : Bool :=
  match decode w with
  | .ok .nop => false
  | .ok .calld => true
  | .ok .rawld => true
  | .ok .comp => true
  | .ok .clrerr => true
  | .ok .sreset => false
  | .ok (.lockTry _) => false
  | .ok (.lockRel _) => false
  | .error .illegal => true
  | .error .malformedLock => false
  | .error .short => true

/-- No engine command while `BUSY = 1` (R280). -/
def CommandDuty (s : State) : Prop :=
  s.flags.busy = true → ∀ w, s.nextCommand = some w → droppedWhileBusy w = false

/-- No buffer write while `BUSY = 1` (R281). -/
def BufferDuty (s : State) : Prop :=
  s.flags.busy = true → ∀ off n v, s.nextAccess = some (.write off n v) → isBufferByte off = false

/-- Results, raw values and `CAL_W` are read only with `BUSY = 0` (R277). -/
def ReadDuty (s : State) : Prop :=
  ∀ off n, s.nextAccess = some (.read off n) → bufferRegionEnd ≤ off → s.flags.busy = false

/-! ### The value of a binary32 pattern, for the claim that `fdiv32` rounds to nearest -/

/-- The exponent field, bits 30:23 (42_compensation.md R167). -/
def floatExponent (w : Word) : Nat := (w.extractLsb' 23 8).toNat

/-- The fraction field, bits 22:0 (42_compensation.md R167). -/
def floatFraction (w : Word) : Nat := (w.extractLsb' 0 23).toNat

/-- A pattern that stands for a number: no infinity, no NaN. -/
def floatFinite (w : Word) : Bool := floatExponent w != 255

/-- The magnitude of a finite pattern: IEEE 754 binary32, bias 127. -/
def floatAbs (w : Word) : ℚ :=
  if floatExponent w = 0 then (floatFraction w : ℚ) / 2 ^ 149
  else ((2 ^ 23 + floatFraction w : ℕ) : ℚ) * 2 ^ floatExponent w / 2 ^ 150

/-- The number a finite pattern stands for; bit 31 is the sign. -/
def floatValue (w : Word) : ℚ := if w.getLsbD 31 then -floatAbs w else floatAbs w

end Sys2Proof.Machine
end

