-- ==== Sys2Proof/Certificates/Slice0/Obligations.lean ====
section
/-! DEFINITION. The statements about the block for the provers, from the numbered rules of spec/. Right
sides are written out field by field where a rule says what a step does. `step`, `exec`, `commandWrite`,
`sequencerStep` and the reads of memory and window are the model's. -/

open Sys2Proof Sys2Proof.Machine

/-! ### Encoding -/

/-- 30_encoding.md R93, the words of 95_test_vectors.md V10: the word of each mnemonic, written out from
the encoding. -/
def Obligations.SampleWordsDecode : Prop :=
  decode 0x00000000 = .ok .nop ∧ decode 0x00000001 = .ok .calld ∧ decode 0x00000002 = .ok .rawld ∧
  decode 0x00000003 = .ok .comp ∧ decode 0x00000004 = .ok .clrerr ∧ decode 0x00000005 = .ok .sreset ∧
  decode 0x00000110 = .ok (.lockTry 1) ∧ decode 0x0000FF10 = .ok (.lockTry 255) ∧
  decode 0x00000211 = .ok (.lockRel 2) ∧ decode 0x00008011 = .ok (.lockRel 128)

/-- 30_encoding.md R93: a word is a command exactly when it matches the command's row under the row's
mask and its agent field is the command's, non-zero for a lock command. -/
def Obligations.DecodeFollowsOpcodeTable : Prop :=
  ∀ (w : Word) (i : Instr),
    decode w = .ok i ↔
      i.wf = true ∧ w &&& tableMask i = tableMatch i ∧ agentOf w = agentFieldOf i

/-- Decode of encode is the instruction, for every well-formed command, on words and on bytes; and a word
has one meaning: the command it decodes to is well-formed and encodes back to it. -/
def Obligations.DecodeEncodeRoundTrip : Prop :=
  (∀ i : Instr, i.wf = true →
    decode (encode i) = .ok i ∧
      ∀ rest : List Byte, decodeBytes (encodeBytes i ++ rest) = .ok (i, rest)) ∧
  (∀ (w : Word) (i : Instr), decode w = .ok i → i.wf = true ∧ encode i = w)

/-- 30_encoding.md R95: which words are illegal, which are malformed lock words, that no third kind is
refused and only the word 0 is a no-op, and what each refused word does when it is written to `CMD`. -/
def Obligations.IllegalAndMalformedWords : Prop :=
  ∀ w : Word,
    (decode w = .error .illegal ↔
      ((0x06 ≤ (opcOf w).toNat ∧ (opcOf w).toNat ≤ 0x0F) ∨ 0x12 ≤ (opcOf w).toNat) ∨
        ((opcOf w).toNat ≤ 0x05 ∧ zero24Of w ≠ 0)) ∧
    (decode w = .error .malformedLock ↔
      (opcOf w = 0x10 ∨ opcOf w = 0x11) ∧ (zero16Of w ≠ 0 ∨ agentOf w = 0)) ∧
    (decode w ≠ .error .short) ∧ (decode w = .ok .nop → w = 0x00000000) ∧
    (decode w = .error .illegal → ∀ s : State, s.flags.busy = false → s.flags.failed = false →
      commandWrite w s =
        .next { s with
          flags := { s.flags with done := false, err := true }, cause := 8, stage := .idle }) ∧
    (decode w = .error .malformedLock → ∀ s : State,
      commandWrite w s = .next { s with flags := { s.flags with lockviol := true } })

/-! ### Steps -/

/-- The step that takes a command word from the host runs the decoded instruction, on the state with the
input taken and the write acknowledged (the acknowledgement is the model's own record, log entry 10): a
write at window offset 0, at the byte address `BASE` of the host bus (20_memory.md R60, log entry 20),
or a word placed by `withFetchWord` (log entry 2). -/
def Obligations.StepRunsDecodedCommand : Prop :=
  (∀ (s : State) (rest : List Event) (w : Word) (i : Instr),
    s.env.inputs = .access (.write 0 4 w) :: rest ∨
      s.env.inputs = .address (.write s.cfg.baseAddress 4 w) :: rest →
    decode w = .ok i → step s = exec i ((s.withInputs rest).withResp .ack)) ∧
  (∀ (s : State) (nbits w : Nat) (i : Instr),
    decodeTableWord nbits w = some i → step (s.withFetchWord nbits w) = exec i (s.withResp .ack))

/-- The lines of a host program (30_encoding.md R104, R105, 43_lock.md R196, R197), each one step: a
command line runs the same `exec`; `WR`, `WRH`, `WRB` write 4, 2, 1 bytes; `RD` takes the value into
`r`; the write halves of `LOCK_ACQ` and `LOCK_TRYN` write the word of `LOCK_TRY a` and go on with their
reads; a bus operation, by a line or by an agent outside the threads, is recorded and changes nothing of
the block (70_reset_and_hazards.md R270). Host threads and what one does with a bus error are the
model's own (log entry 13), so is the record of bus operations (log entry 14). -/
def Obligations.StepRunsThreadLine : Prop :=
  (∀ (s t u : State) (rest : List Event) (k : Nat) (th : Thread) (l : Line) (ls : List Line),
    s.env.inputs = .thread k :: rest → s.env.threads[k]? = some th → th.prog = l :: ls →
    u = s.withInputs rest →
      (∀ i, l = .cmd i → i.wf = true → exec i (u.withResp .ack) = .next t →
        step s = .next (t.withThread k { th with prog := ls })) ∧
      (∀ off v, l = .wr off v → hostAccess (.write off 4 v) u = .next t →
        step s = .next (t.withThread k { th with prog := ls })) ∧
      (∀ off v, l = .wrh off v → hostAccess (.write off 2 (v.zeroExtend 32)) u = .next t →
        step s = .next (t.withThread k { th with prog := ls })) ∧
      (∀ off v, l = .wrb off v → hostAccess (.write off 1 (v.zeroExtend 32)) u = .next t →
        step s = .next (t.withThread k { th with prog := ls })) ∧
      (∀ off v, l = .rd off → memRead s off 4 = some v →
        step s =
          .next ((u.withResp (.value 4 v)).withThread k
            { th with prog := ls, r := v, rPrev := th.r })) ∧
      (∀ off, l = .rd off → memRead s off 4 = none →
        step s =
          .next ((u.withResp .busError).withThread k { th with prog := ls, rPrev := th.r })) ∧
      (∀ a, l = .lockAcq a → hostAccess (.write 0 4 ((0#16 ++ a) ++ 0x10#8)) u = .next t →
        step s = .next (t.withThread k { th with prog := .lockAcqRead a :: ls })) ∧
      (∀ a n, l = .lockTryN a n → hostAccess (.write 0 4 ((0#16 ++ a) ++ 0x10#8)) u = .next t →
        step s = .next (t.withThread k { th with prog := .lockTryNRead a (n - 1) :: ls })) ∧
      (∀ op, l = .bus op →
        step s =
          .next { s with
            env :=
              { s.env with
                inputs := rest
                threads := s.env.threads.set k { th with prog := ls }
                busLog := ⟨th.agent, op⟩ :: s.env.busLog } })) ∧
  (∀ (s : State) (rest : List Event) (a : Byte) (op : BusOp), s.env.inputs = .bus a op :: rest →
    step s =
      .next { s with env := { s.env with inputs := rest, busLog := ⟨a, op⟩ :: s.env.busLog } })

/-- 30_encoding.md R100, first clause: given the turn, the sequencer has a step exactly when
`BUSY = 1`. That it has the turn where no host is to act again, and that behind the placed inputs a free
order of events goes on for ever (00_scope.md R11), are the model's choices (log entry 1). -/
def Obligations.SequencerStepsExactlyWhenBusy : Prop :=
  ∀ (s : State) (rest : List Event),
    (s.env.inputs = .sequencer :: rest →
      (s.flags.busy = true → step s = sequencerStep (s.withInputs rest)) ∧
      (s.flags.busy = false → step s = .next (s.withInputs rest))) ∧
    (s.env.inputs = [] → s.env.order = none →
      (s.flags.busy = true → step s = sequencerStep s) ∧ (s.flags.busy = false → step s = .next s)) ∧
    (∀ n, s.env.inputs = [] → s.env.order = some n →
      step s = perform (Config.schedule n) { s with env := { s.env with order := some (n + 1) } })

/-- No step of the machine stops from a state that meets the invariant. -/
def Obligations.StepNeverStops : Prop :=
  ∀ s : State, Inv s → ∃ t : State, step s = .next t

/-- Every step keeps the invariant of the block. -/
def Obligations.StepKeepsInvariant : Prop :=
  ∀ s t : State, Inv s → step s = .next t → Inv t

/-- The state after reset meets the invariant. -/
def Obligations.ResetMeetsInvariant : Prop := Inv State.reset

/-- 70_reset_and_hazards.md R260 and the table of 10_state.md R42: a hardware reset sets every item,
whatever the block was doing. The temporaries are free (log entry 6); parameters and inputs are no
items of the block (log entries 1, 3); that the host agents, the last response and the bus log are left
alone is the model's choice (log entry 19). -/
def Obligations.HardwareResetSetsEveryItem : Prop :=
  ∀ (s : State) (rest : List Event), s.env.inputs = .hardReset :: rest →
    ∃ t : State, step s = .next t ∧
      t.cal = CalSet.zero ∧ (∀ a, Memory.read t.mem a = 0) ∧ t.raw = Raw.zero ∧
      t.res = Results.zero ∧ t.flags = Flags.zero ∧ t.stage = .idle ∧ t.cause = 0 ∧
      t.lock = ⟨false, 0⟩ ∧ t.cfg = s.cfg ∧ t.env = { s.env with inputs := rest }

/-- 70_reset_and_hazards.md R261: what the window shows after reset, and that nothing executes until a
host writes a command. -/
def Obligations.ResetStateShowsZeroAndIdles : Prop :=
  memRead State.reset 0x04 4 = some 0 ∧ memRead State.reset 0x08 4 = some 0 ∧
  memRead State.reset 0x0C 4 = some 0 ∧ (∀ a, windowByte State.reset a = 0) ∧
  State.reset.flags.lifeCycle = .uninit ∧ step State.reset = .next State.reset

/-! ### The commands -/

/-- 44_control.md R211: `NOP` changes nothing in any state, and only the word 0 is `NOP`. -/
def Obligations.NopChangesNothing : Prop :=
  (∀ s : State, exec .nop s = .next s) ∧ (∀ w : Word, decode w = .ok .nop ↔ w = 0x00000000) ∧
    decode 0x00000100 = .error .illegal

/-- 40_calibration.md R121: the accept of `CALLD`, the refusal when a set is loaded and the start
otherwise. -/
def Obligations.CalldAccept : Prop :=
  ∀ s : State, s.flags.busy = false → s.flags.failed = false →
    (s.flags.calValid = true →
      exec .calld s =
        .next { s with
          flags := { s.flags with done := false, err := true }, cause := 9, stage := .idle }) ∧
    (s.flags.calValid = false → s.cfg.stageAtomic = false →
      exec .calld s =
        .next { s with
          flags := { s.flags with busy := true, done := false, err := false }
          cause := 0
          stage := .calParse })

/-- 41_raw_decode.md R131: the accept of `RAWLD`. -/
def Obligations.RawldAccept : Prop :=
  ∀ s : State, s.flags.busy = false → s.flags.failed = false →
    (s.flags.calValid = false →
      exec .rawld s =
        .next { s with
          flags := { s.flags with done := false, err := true }, cause := 7, stage := .idle }) ∧
    (s.flags.calValid = true → s.cfg.stageAtomic = false →
      exec .rawld s =
        .next { s with
          raw := ⟨0, 0⟩
          flags := { s.flags with busy := true, done := false, err := false, rawValid := false }
          cause := 0
          stage := .rawDecode })

/-- 42_compensation.md R148: the accept of `COMP`. -/
def Obligations.CompAccept : Prop :=
  ∀ s : State, s.flags.busy = false → s.flags.failed = false →
    (s.flags.calValid = false →
      exec .comp s =
        .next { s with
          flags := { s.flags with done := false, err := true }, cause := 7, stage := .idle }) ∧
    (s.flags.calValid = true → s.flags.rawValid = false →
      exec .comp s =
        .next { s with
          flags := { s.flags with done := false, err := true }, cause := 10, stage := .idle }) ∧
    (s.flags.calValid = true → s.flags.rawValid = true → s.cfg.stageAtomic = false →
      exec .comp s =
        .next { s with
          res := ⟨0, 0, 0, 0, 0, 0⟩
          flags :=
            { s.flags with
              busy := true, done := false, err := false, resValid := false, zden := false,
              ovf := false }
          cause := 0
          stage := .tS1 })

/-- 44_control.md R212: `CLRERR` clears five items when the engine takes it, is dropped with `CMDOVR`
while `BUSY = 1`, and is dropped when `FAILED = 1`. -/
def Obligations.ClrerrClearsDiagnostics : Prop :=
  ∀ s : State,
    (s.flags.busy = false → s.flags.failed = false →
      exec .clrerr s =
        .next { s with
          flags :=
            { s.flags with err := false, done := false, cmdovr := false, lockviol := false }
          cause := 0 }) ∧
    (s.flags.busy = true →
      exec .clrerr s = .next { s with flags := { s.flags with cmdovr := true } }) ∧
    (s.flags.busy = false → s.flags.failed = true → exec .clrerr s = .next s)

/-- 44_control.md R213: `SRESET` sets every item of 10_state.md R42 but the lock cell, in any state;
what was running is gone. The temporaries are free (log entry 6). -/
def Obligations.SresetResetsAllButLock : Prop :=
  ∀ s : State, ∃ t : State, exec .sreset s = .next t ∧
    t.cal = CalSet.zero ∧ t.mem = [] ∧ (∀ a, Memory.read t.mem a = 0) ∧ t.raw = Raw.zero ∧
    t.res = Results.zero ∧ t.flags = Flags.zero ∧ t.stage = .idle ∧ t.cause = 0 ∧
    t.lock = s.lock ∧ t.cfg = s.cfg ∧ t.env = s.env ∧ sequencerTurn t = .next t

/-- 43_lock.md R192: `LOCK_TRY a` takes a free lock and leaves a held one, its own too, alone. -/
def Obligations.LockTryTakesFreeLock : Prop :=
  ∀ (s : State) (a : Byte), a ≠ 0 →
    (s.lock.held = false → exec (.lockTry a) s = .next { s with lock := ⟨true, a⟩ }) ∧
    (s.lock.held = true → exec (.lockTry a) s = .next s)

/-- 43_lock.md R194: `LOCK_REL a` frees the lock of its owner; any other release sets `LOCKVIOL` and
leaves the cell. -/
def Obligations.LockRelFreesOwnLock : Prop :=
  ∀ (s : State) (a : Byte), a ≠ 0 →
    (s.lock.held = true ∧ s.lock.owner = a →
      exec (.lockRel a) s = .next { s with lock := ⟨false, 0⟩ }) ∧
    (¬(s.lock.held = true ∧ s.lock.owner = a) →
      exec (.lockRel a) s = .next { s with flags := { s.flags with lockviol := true } })

/-- 30_encoding.md R99: the order of the tests of the accept step, for every word. -/
def Obligations.AcceptFollowsTestOrder : Prop :=
  ∀ (w : Word) (s : State),
    (∀ a, decode w = .ok (.lockTry a) →
      commandWrite w s = .next (if s.lock.held then s else { s with lock := ⟨true, a⟩ })) ∧
    (∀ a, decode w = .ok (.lockRel a) →
      commandWrite w s =
        .next (if s.lock.held = true ∧ s.lock.owner = a then { s with lock := ⟨false, 0⟩ }
          else { s with flags := { s.flags with lockviol := true } })) ∧
    (decode w = .error .malformedLock →
      commandWrite w s = .next { s with flags := { s.flags with lockviol := true } }) ∧
    (decode w = .ok .sreset → commandWrite w s = .next s.softReset) ∧
    (decode w = .ok .nop → commandWrite w s = .next s) ∧
    (droppedWhileBusy w = true →
      (s.flags.busy = true →
        commandWrite w s = .next { s with flags := { s.flags with cmdovr := true } }) ∧
      (s.flags.busy = false → s.flags.failed = true → commandWrite w s = .next s) ∧
      (s.flags.busy = false → s.flags.failed = false →
        (decode w = .error .illegal → commandWrite w s = .next (s.raiseError .illegalCommand)) ∧
        (decode w = .ok .clrerr → commandWrite w s = .next s.clearError) ∧
        (decode w = .ok .calld → commandWrite w s = acceptCalld s) ∧
        (decode w = .ok .rawld → commandWrite w s = acceptRawld s) ∧
        (decode w = .ok .comp → commandWrite w s = acceptComp s)))

/-- The frame of the engine commands but `SRESET`, on every path of the staged model: each byte of the
buffers, the coefficient file, the lock, the temporaries, the parameters and the inputs are unchanged;
only `RAWLD` touches the raw registers, only `COMP` the results, `ZDEN` and `OVF`; `CAL_VALID` and
`FAILED` are unchanged; `LOCKVIOL` changes by `CLRERR` only (R125, R135, R173, R211, R212). -/
def Obligations.EngineCommandFrame : Prop :=
  ∀ (i : Instr) (s t : State),
    i = .nop ∨ i = .calld ∨ i = .rawld ∨ i = .comp ∨ i = .clrerr →
    s.cfg.stageAtomic = false → exec i s = .next t →
      t.cal = s.cal ∧ (∀ a, Memory.read t.mem a = Memory.read s.mem a) ∧ t.lock = s.lock ∧
      t.tmp = s.tmp ∧ t.cfg = s.cfg ∧ t.env = s.env ∧ t.free = s.free ∧
      t.flags.calValid = s.flags.calValid ∧ t.flags.failed = s.flags.failed ∧
      (i ≠ .rawld → t.raw = s.raw ∧ t.flags.rawValid = s.flags.rawValid) ∧
      (i ≠ .comp →
        t.res = s.res ∧ t.flags.resValid = s.flags.resValid ∧ t.flags.zden = s.flags.zden ∧
          t.flags.ovf = s.flags.ovf) ∧
      (i ≠ .clrerr → t.flags.lockviol = s.flags.lockviol) ∧
      (i = .nop ∨ i = .clrerr → t.stage = s.stage ∧ t.flags.busy = s.flags.busy)

/-- 43_lock.md R201: lock commands change nothing of the engine but `LOCKVIOL`, and no engine command
changes the lock cell, with or without `STAGE_ATOMIC`. -/
def Obligations.LockAndEngineAreIndependent : Prop :=
  (∀ (a : Byte) (s t : State) (i : Instr), i = .lockTry a ∨ i = .lockRel a → exec i s = .next t →
    ∃ (l : LockCell) (v : Bool), t = { s with lock := l, flags := { s.flags with lockviol := v } }) ∧
  (∀ (i : Instr) (s t : State),
    (∀ a, i ≠ .lockTry a ∧ i ≠ .lockRel a) → exec i s = .next t → t.lock = s.lock)

/-- Under `STAGE_ATOMIC` an accepted command answers, in its accept step, a state with `BUSY = 0` that
the staged model also reaches from its accepted state (30_encoding.md R103; that its stages run as
sequencer turns inside the accept step is log entry 15). -/
def Obligations.AtomicCommandsEndWhereStagedOnesDo : Prop :=
  ∀ s : State, s.cfg.stageAtomic = true → s.flags.busy = false → s.flags.failed = false →
    (s.flags.calValid = false → ∃ (n : Nat) (t : State), n ≤ 3 ∧ exec .calld s = .next t ∧
      t.flags.busy = false ∧ sequencerTurns n (s.accept .calParse) = .next t) ∧
    (s.flags.calValid = true → ∃ (n : Nat) (t : State), n ≤ 3 ∧ exec .rawld s = .next t ∧
      t.flags.busy = false ∧ sequencerTurns n s.startRawld = .next t) ∧
    (s.flags.calValid = true → s.flags.rawValid = true →
      ∃ (n : Nat) (t : State), n ≤ 18 ∧ exec .comp s = .next t ∧
        t.flags.busy = false ∧ sequencerTurns n s.startComp = .next t)

/-! ### Errors -/

/-- 60_exceptions.md R230: a step that enters an error sets exactly the error entry's items, and the
raising command has committed nothing: what it changed is at most what the accept of `RAWLD` clears. -/
def Obligations.ErrorEntryIsPrecise : Prop :=
  ∀ s t : State, step s = .next t → s.flags.err = false → t.flags.err = true →
    t.flags.busy = false ∧ t.flags.done = false ∧ t.stage = .idle ∧
    (∃ e : ErrorKind, e.raisedByBlock = true ∧ t.cause = e.code ∧
      t.flags.failed = (s.flags.failed || e.fatal)) ∧
    t.cal = s.cal ∧ (∀ a, Memory.read t.mem a = Memory.read s.mem a) ∧ t.res = s.res ∧
    t.lock = s.lock ∧ t.flags.calValid = s.flags.calValid ∧
    t.flags.resValid = s.flags.resValid ∧ t.flags.zden = s.flags.zden ∧
    t.flags.ovf = s.flags.ovf ∧ t.flags.cmdovr = s.flags.cmdovr ∧
    t.flags.lockviol = s.flags.lockviol ∧
    ((t.raw = s.raw ∧ t.flags.rawValid = s.flags.rawValid) ∨
      (t.raw = Raw.zero ∧ t.flags.rawValid = false))

/-- 60_exceptions.md R233: after the fatal error the window shows it, engine words are dropped with no
state change, and only `SRESET` or a hardware reset ends it. -/
def Obligations.FailedLastsUntilReset : Prop :=
  ∀ s : State, Inv s → s.flags.failed = true →
    statusWord s.flags s.stage &&& 0xFFFFF9FF#32 = 0x0000000C#32 ∧ causeWord s.cause = 0x00000005 ∧
    (∀ w, droppedWhileBusy w = true → commandWrite w s = .next s) ∧
    (∀ t, step s = .next t →
      (t.flags.failed = true ∧ t.cause = 5) ∨ s.nextEvent = some .hardReset ∨
        ∃ w, s.nextCommand = some w ∧ decode w = .ok .sreset)

/-- 10_state.md R34 and R33: `CMDOVR` and `LOCKVIOL`, once set, stay set until `CLRERR`, `SRESET` or a
hardware reset; `OVF` stays set until a `COMP` is accepted or a reset. -/
def Obligations.StickyFlagsStay : Prop :=
  ∀ s t : State, step s = .next t →
    ((s.flags.cmdovr = true ∧ t.flags.cmdovr = false ∨
        s.flags.lockviol = true ∧ t.flags.lockviol = false) →
      s.nextEvent = some .hardReset ∨
        ∃ w, s.nextCommand = some w ∧ (decode w = .ok .clrerr ∨ decode w = .ok .sreset)) ∧
    (s.flags.ovf = true → t.flags.ovf = false →
      s.nextEvent = some .hardReset ∨
        ∃ w, s.nextCommand = some w ∧ (decode w = .ok .comp ∨ decode w = .ok .sreset))

/-- 10_state.md R23: with a set loaded, no step but `SRESET` or a hardware reset changes the
coefficient file. -/
def Obligations.CalibrationSetIsImmutable : Prop :=
  ∀ s t : State, Inv s → s.flags.calValid = true → step s = .next t →
    (t.cal = s.cal ∧ t.flags.calValid = true) ∨ s.nextEvent = some .hardReset ∨
      ∃ w, s.nextCommand = some w ∧ decode w = .ok .sreset

/-! ### The stages of CALLD and RAWLD -/

/-- 40_calibration.md R122: stage `CAL_PARSE`, each coefficient from its byte pair, low byte first. -/
def Obligations.CalParseIsPositional : Prop :=
  ∀ s : State, s.stage = .calParse →
    ∃ c : CalSet,
      sequencerStep s = .next { s with tmp := { s.tmp with tcal := c }, stage := .calCheck } ∧
      ∀ k : Fin 12, c.get k =
        Memory.read s.mem (0x10 + 2 * k.val + 1) ++ Memory.read s.mem (0x10 + 2 * k.val)

/-- 40_calibration.md R123: stage `CAL_CHECK`, the three tests and the fatal error entry. The
temporaries after an error entry are free (log entry 6). -/
def Obligations.CalCheckRejectsDegenerateBlocks : Prop :=
  ∀ s : State, s.stage = .calCheck →
    ((∀ i, i < 24 → Memory.read s.mem (0x10 + i) = 0xFF) ∨ s.tmp.tcal.t1 = 0 ∨ s.tmp.tcal.p1 = 0 →
      ∃ (tm : Temps) (n : Nat),
        sequencerStep s =
          .next { s with
            flags := { s.flags with busy := false, done := false, err := true, failed := true }
            cause := 5
            stage := .idle
            tmp := tm
            free := n }) ∧
    (¬((∀ i, i < 24 → Memory.read s.mem (0x10 + i) = 0xFF) ∨ s.tmp.tcal.t1 = 0 ∨
        s.tmp.tcal.p1 = 0) →
      sequencerStep s = .next { s with stage := .calCommit })

/-- 40_calibration.md R124: stage `CAL_COMMIT`. The temporaries afterwards are free (log entry 6). -/
def Obligations.CalCommitLoadsTheSet : Prop :=
  ∀ s : State, s.stage = .calCommit →
    ∃ (tm : Temps) (n : Nat),
      sequencerStep s =
        .next { s with
          cal := s.tmp.tcal
          flags := { s.flags with calValid := true, busy := false, done := true }
          stage := .idle
          tmp := tm
          free := n }

/-- 41_raw_decode.md R132: stage `RAW_DECODE`, pressure triplet first, low nibble of each third byte
discarded. -/
def Obligations.RawDecodeAssemblesTriplets : Prop :=
  ∀ s : State, s.stage = .rawDecode →
    ∃ tp tt : Raw20,
      sequencerStep s =
        .next { s with tmp := { s.tmp with tp := tp, tt := tt }, stage := .rawCheck } ∧
      tp.toNat =
        ((Memory.read s.mem 0x28).toNat <<< 12) ||| ((Memory.read s.mem 0x29).toNat <<< 4) |||
          ((Memory.read s.mem 0x2A).toNat >>> 4) ∧
      tt.toNat =
        ((Memory.read s.mem 0x2B).toNat <<< 12) ||| ((Memory.read s.mem 0x2C).toNat <<< 4) |||
          ((Memory.read s.mem 0x2D).toNat >>> 4)

/-- 41_raw_decode.md R133: stage `RAW_CHECK`, a sentinel in either channel. The temporaries after an
error entry are free (log entry 6). -/
def Obligations.RawCheckRejectsSentinels : Prop :=
  ∀ s : State, s.stage = .rawCheck →
    (s.tmp.tt = 0x00000 ∨ s.tmp.tt = 0x80000 ∨ s.tmp.tp = 0x00000 ∨ s.tmp.tp = 0x80000 →
      ∃ (tm : Temps) (n : Nat),
        sequencerStep s =
          .next { s with
            flags := { s.flags with busy := false, done := false, err := true }
            cause := 6
            stage := .idle
            tmp := tm
            free := n }) ∧
    (¬(s.tmp.tt = 0x00000 ∨ s.tmp.tt = 0x80000 ∨ s.tmp.tp = 0x00000 ∨ s.tmp.tp = 0x80000) →
      sequencerStep s = .next { s with stage := .rawCommit })

/-- 41_raw_decode.md R134: stage `RAW_COMMIT`. The temporaries afterwards are free (log entry 6). -/
def Obligations.RawCommitLoadsThePair : Prop :=
  ∀ s : State, s.stage = .rawCommit →
    ∃ (tm : Temps) (n : Nat),
      sequencerStep s =
        .next { s with
          raw := ⟨s.tmp.tt, s.tmp.tp⟩
          flags := { s.flags with rawValid := true, busy := false, done := true }
          stage := .idle
          tmp := tm
          free := n }

/-- What `CALLD` does as a whole on a buffer with a valid block: from accept, three turns of the
sequencer load the positional parse and end with `DONE` (R121 to R124, R126). -/
def Obligations.CalldLoadsValidBlock : Prop :=
  ∀ s : State, s.flags.busy = false → s.flags.failed = false → s.flags.calValid = false →
    s.cfg.stageAtomic = false → (∃ i, i < 24 ∧ Memory.read s.mem (0x10 + i) ≠ 0xFF) →
    (Memory.read s.mem 0x10 ≠ 0 ∨ Memory.read s.mem 0x11 ≠ 0) →
    (Memory.read s.mem 0x16 ≠ 0 ∨ Memory.read s.mem 0x17 ≠ 0) →
    ∃ u t : State, exec .calld s = .next u ∧ sequencerTurns 3 u = .next t ∧
      t.cal = parseCal s.mem ∧ t.flags.calValid = true ∧ t.flags.busy = false ∧
      t.flags.done = true ∧ t.flags.err = false ∧ t.stage = .idle ∧
      (∀ a, Memory.read t.mem a = Memory.read s.mem a) ∧ t.raw = s.raw ∧ t.res = s.res ∧
      t.lock = s.lock

/-- What `RAWLD` does as a whole on a burst without sentinels: from accept, three turns of the sequencer
load the pair, each count in `1..0xFFFFF` and not `0x80000` (R131 to R136). -/
def Obligations.RawldLoadsGoodBurst : Prop :=
  ∀ s : State, s.flags.busy = false → s.flags.failed = false → s.flags.calValid = true →
    s.cfg.stageAtomic = false → isSentinel (rawTriplet s.mem 0) = false →
    isSentinel (rawTriplet s.mem 3) = false →
    ∃ u t : State, exec .rawld s = .next u ∧ sequencerTurns 3 u = .next t ∧
      t.raw = ⟨rawTriplet s.mem 3, rawTriplet s.mem 0⟩ ∧ t.flags.rawValid = true ∧
      t.flags.busy = false ∧ t.flags.done = true ∧ t.flags.err = false ∧ t.stage = .idle ∧
      (∀ a, Memory.read t.mem a = Memory.read s.mem a) ∧ t.cal = s.cal ∧ t.res = s.res ∧
      t.lock = s.lock ∧ 1 ≤ t.raw.t.toNat ∧ 1 ≤ t.raw.p.toNat

/-! ### COMP -/

/-- The temperature stages `T_S1` to `T_S4` in the spec's primitives (R150 to R153), each coefficient
extended by its signedness (10_state.md R21), with the overflows each sets and nothing else changed. The sequence is the spec's general knowledge
(93_implementation_defined.md G1; log entry 18). -/
def Obligations.TemperatureStages : Prop :=
  ∀ (s : State) (T1 T2 T3 : W64),
    T1 = (if (0 : Fin 12) ∈ s.cfg.calUnsigned then s.cal.t1.zeroExtend 64 else s.cal.t1.signExtend 64) →
    T2 = (if (1 : Fin 12) ∈ s.cfg.calUnsigned then s.cal.t2.zeroExtend 64 else s.cal.t2.signExtend 64) →
    T3 = (if (2 : Fin 12) ∈ s.cfg.calUnsigned then s.cal.t3.zeroExtend 64 else s.cal.t3.signExtend 64) →
    (s.stage = .tS1 → ∀ d a m v : Flagged,
      d = shl64 T1 1 → a = sub64 (sra64 (s.raw.t.zeroExtend 64) 3).val d.val →
      m = mul64 a.val T2 → v = sra64 m.val 11 →
      sequencerStep s =
        .next (s.afterStage { s.tmp with a := a.val, v1 := v.val } (d.ovf || a.ovf || m.ovf) .tS2)) ∧
    (s.stage = .tS2 → ∀ b q m v : Flagged,
      b = sub64 (sra64 (s.raw.t.zeroExtend 64) 4).val T1 → q = mul64 b.val b.val →
      m = mul64 (sra64 q.val 12).val T3 → v = sra64 m.val 14 →
      sequencerStep s =
        .next (s.afterStage { s.tmp with b := b.val, v2 := v.val } (b.ovf || q.ovf || m.ovf) .tS3)) ∧
    (s.stage = .tS3 → ∀ f : Flagged, f = add64 s.tmp.v1 s.tmp.v2 →
      sequencerStep s = .next (s.afterStage { s.tmp with fine := f.val } f.ovf .tS4)) ∧
    (s.stage = .tS4 → ∀ m n : Flagged, m = mul64 s.tmp.fine s.cfg.tMul → n = add64 m.val s.cfg.tRnd →
      sequencerStep s =
        .next (s.afterStage { s.tmp with tnum := n.val, tcenti := (sra64 n.val 8).val }
          (m.ovf || n.ovf) .pS1))

/-- The pressure stages `P_S1` to `P_S6` in the spec's primitives (R154 to R159), each coefficient extended
by its signedness (10_state.md R21), with the overflows each sets and nothing else changed. The sequence is the spec's general knowledge
(93_implementation_defined.md G1; log entry 18). -/
def Obligations.PressureDenominatorStages : Prop :=
  ∀ (s : State) (X Y P1 P2 P3 P4 P5 P6 : W64), X = s.tmp.x → Y = s.tmp.y →
    P1 = (if (3 : Fin 12) ∈ s.cfg.calUnsigned then s.cal.p1.zeroExtend 64 else s.cal.p1.signExtend 64) →
    P2 = (if (4 : Fin 12) ∈ s.cfg.calUnsigned then s.cal.p2.zeroExtend 64 else s.cal.p2.signExtend 64) →
    P3 = (if (5 : Fin 12) ∈ s.cfg.calUnsigned then s.cal.p3.zeroExtend 64 else s.cal.p3.signExtend 64) →
    P4 = (if (6 : Fin 12) ∈ s.cfg.calUnsigned then s.cal.p4.zeroExtend 64 else s.cal.p4.signExtend 64) →
    P5 = (if (7 : Fin 12) ∈ s.cfg.calUnsigned then s.cal.p5.zeroExtend 64 else s.cal.p5.signExtend 64) →
    P6 = (if (8 : Fin 12) ∈ s.cfg.calUnsigned then s.cal.p6.zeroExtend 64 else s.cal.p6.signExtend 64) →
    (s.stage = .pS1 → ∀ x : Flagged, x = sub64 s.tmp.fine 128000#64 →
      sequencerStep s = .next (s.afterStage { s.tmp with x := x.val } x.ovf .pS2)) ∧
    (s.stage = .pS2 → ∀ q y : Flagged, q = mul64 X X → y = mul64 q.val P6 →
      sequencerStep s = .next (s.afterStage { s.tmp with y := y.val } (q.ovf || y.ovf) .pS3)) ∧
    (s.stage = .pS3 → ∀ m h y : Flagged, m = mul64 X P5 → h = shl64 m.val 17 → y = add64 Y h.val →
      sequencerStep s =
        .next (s.afterStage { s.tmp with y := y.val } (m.ovf || h.ovf || y.ovf) .pS4)) ∧
    (s.stage = .pS4 → ∀ h y : Flagged, h = shl64 P4 35 → y = add64 Y h.val →
      sequencerStep s = .next (s.afterStage { s.tmp with y := y.val } (h.ovf || y.ovf) .pS5)) ∧
    (s.stage = .pS5 → ∀ q m k h x : Flagged, q = mul64 X X → m = mul64 q.val P3 → k = mul64 X P2 →
      h = shl64 k.val 12 → x = add64 (sra64 m.val 8).val h.val →
      sequencerStep s =
        .next (s.afterStage { s.tmp with x := x.val }
          (q.ovf || m.ovf || k.ovf || h.ovf || x.ovf) .pS6)) ∧
    (s.stage = .pS6 → ∀ a m : Flagged, a = add64 140737488355328#64 X → m = mul64 a.val P1 →
      sequencerStep s =
        .next (s.afterStage { s.tmp with x := (sra64 m.val 33).val } (a.ovf || m.ovf) .pS7))

/-- The pressure stages `P_S8` to `P_S12` and `FCVT` in the spec's primitives (R162 to R167), each
coefficient extended by its signedness (10_state.md R21), with the overflows each sets and nothing else
changed. The pressure sequence is the spec's general knowledge
(93_implementation_defined.md G1; log entry 18). -/
def Obligations.PressureAndFloatStages : Prop :=
  ∀ (s : State) (X Y P P7 P8 P9 : W64), X = s.tmp.x → Y = s.tmp.y → P = s.tmp.p →
    P7 = (if (9 : Fin 12) ∈ s.cfg.calUnsigned then s.cal.p7.zeroExtend 64 else s.cal.p7.signExtend 64) →
    P8 = (if (10 : Fin 12) ∈ s.cfg.calUnsigned then s.cal.p8.zeroExtend 64 else s.cal.p8.signExtend 64) →
    P9 = (if (11 : Fin 12) ∈ s.cfg.calUnsigned then s.cal.p9.zeroExtend 64 else s.cal.p9.signExtend 64) →
    (s.stage = .pS8 → ∀ p : Flagged, p = sub64 1048576#64 (s.raw.p.zeroExtend 64) →
      sequencerStep s = .next (s.afterStage { s.tmp with p := p.val } p.ovf .pS9)) ∧
    (s.stage = .pS9 → ∀ h d m p : Flagged, h = shl64 P 31 → d = sub64 h.val Y →
      m = mul64 d.val 3125#64 → p = sdiv64 m.val X →
      sequencerStep s =
        .next (s.afterStage { s.tmp with p := p.val } (h.ovf || d.ovf || m.ovf || p.ovf) .pS10)) ∧
    (s.stage = .pS10 → ∀ m q : Flagged, m = mul64 P9 (sra64 P 13).val →
      q = mul64 m.val (sra64 P 13).val →
      sequencerStep s =
        .next (s.afterStage { s.tmp with x := (sra64 q.val 25).val } (m.ovf || q.ovf) .pS11)) ∧
    (s.stage = .pS11 → ∀ m : Flagged, m = mul64 P8 P →
      sequencerStep s = .next (s.afterStage { s.tmp with y := (sra64 m.val 19).val } m.ovf .pS12)) ∧
    (s.stage = .pS12 → ∀ a b h p : Flagged, a = add64 P X → b = add64 a.val Y → h = shl64 P7 4 →
      p = add64 (sra64 b.val 8).val h.val →
      sequencerStep s =
        .next (s.afterStage { s.tmp with p := p.val } (a.ovf || b.ovf || h.ovf || p.ovf) .fcvt)) ∧
    (s.stage = .fcvt →
      sequencerStep s =
        .next (s.afterStage
          { s.tmp with tf := fdiv32 s.tmp.tnum s.cfg.tDiv, pf := fdiv32 P s.cfg.pDiv } false
          .compCommit))

/-- 42_compensation.md R161: stage `P_S7`, the zero-denominator guard and its skip to `FCVT`. -/
def Obligations.ZeroDenominatorGuard : Prop :=
  ∀ s : State, s.stage = .pS7 →
    (s.tmp.x = 0 →
      sequencerStep s =
        .next { s with
          tmp := { s.tmp with p := 0 }, flags := { s.flags with zden := true }, stage := .fcvt }) ∧
    (s.tmp.x ≠ 0 → sequencerStep s = .next { s with stage := .pS8 })

/-- 42_compensation.md R168: stage `COMP_COMMIT`. The temporaries afterwards are free (log entry 6). -/
def Obligations.CompCommitWritesResults : Prop :=
  ∀ s : State, s.stage = .compCommit →
    ∃ (tm : Temps) (n : Nat),
      sequencerStep s =
        .next { s with
          res :=
            { tFine := s.tmp.fine, tNum := s.tmp.tnum, tCenti := s.tmp.tcenti, pQ := s.tmp.p,
              tFlt := s.tmp.tf, pFlt := s.tmp.pf }
          raw := ⟨0, 0⟩
          flags :=
            { s.flags with resValid := true, rawValid := false, busy := false, done := true }
          stage := .idle
          tmp := tm
          free := n }

/-- `COMP` as a whole: from accept, 18 turns of the sequencer, or 13 when the guard skips, commit exactly
`Compensate` of the inputs with its `ZDEN` and `OVF` (R140, R169, R102). -/
def Obligations.CompCommitsCompensate : Prop :=
  ∀ s : State, s.flags.busy = false → s.flags.failed = false → s.flags.calValid = true →
    s.flags.rawValid = true → s.cfg.stageAtomic = false →
    ∃ u t : State, exec .comp s = .next u ∧
      sequencerTurns (if (compensate s.compIn).zden then 13 else 18) u = .next t ∧
      t.res = (compensate s.compIn).res ∧ t.flags.zden = (compensate s.compIn).zden ∧
      t.flags.ovf = (compensate s.compIn).ovf ∧ t.flags.resValid = true ∧
      t.flags.rawValid = false ∧ t.raw = Raw.zero ∧ t.flags.busy = false ∧ t.flags.done = true ∧
      t.flags.err = false ∧ t.stage = .idle ∧ t.cal = s.cal ∧
      (∀ a, Memory.read t.mem a = Memory.read s.mem a) ∧ t.lock = s.lock

/-- R172 for every interleaving: whatever steps come between, a `COMP` that was accepted with the
inputs of `σ 0` and has come to `COMP_COMMIT` without having ended commits `Compensate` of those
inputs. -/
def Obligations.InterleavedCompIsPure : Prop :=
  ∀ (σ : Nat → State) (n : Nat), Run σ n → Inv (σ 0) → (σ 0).stage = .tS1 →
    (σ 0).flags.zden = false → (σ 0).flags.ovf = false →
    (∀ i, i ≤ n → (σ i).stage.command = some .comp) →
    (σ n).stage = .compCommit →
      ∃ t : State, sequencerStep (σ n) = .next t ∧
        t.res = (compensate (σ 0).compIn).res ∧ t.flags.zden = (compensate (σ 0).compIn).zden ∧
        t.flags.ovf = (compensate (σ 0).compIn).ovf

/-- Every accepted command ends under turns of the sequencer: at most 3 for `CALLD` and `RAWLD`, at most
18 for `COMP`; and in every endless order of the agents' steps, whatever the hosts do between, under weak
fairness of the sequencer (30_encoding.md R102, 00_scope.md R11). -/
def Obligations.CommandsEndInBoundedTurns : Prop :=
  (∀ s : State, s.flags.busy = true →
    (s.stage = .calParse ∨ s.stage = .rawDecode →
      ∃ (n : Nat) (t : State), n ≤ 3 ∧ sequencerTurns n s = .next t ∧ t.flags.busy = false) ∧
    (s.stage.command = some .comp →
      ∃ (n : Nat) (t : State), n ≤ 18 ∧ sequencerTurns n s = .next t ∧ t.flags.busy = false)) ∧
  (∀ (ord : Nat → Event) (σ : Nat → State), EndlessRun ord σ → SequencerFair ord σ →
    ∀ i, (σ i).flags.busy = true → ∃ j, i ≤ j ∧ (σ j).flags.busy = false)

/-! ### Arithmetic -/

/-- 42_compensation.md R142, R143, and R144 for `shl64` with `0 <= k <= 63`: the result is the exact one
reduced modulo `2^64` into the signed range, and `OVF` is set exactly when the exact one does not fit. -/
def Obligations.PrimitivesWrapAndFlagOverflow : Prop :=
  ∀ (a b : W64) (k : Nat) (r : Flagged) (z : Int),
    (r = add64 a b ∧ z = a.toInt + b.toInt) ∨ (r = sub64 a b ∧ z = a.toInt - b.toInt) ∨
      (r = mul64 a b ∧ z = a.toInt * b.toInt) ∨
      (k ≤ 63 ∧ r = shl64 a k ∧ z = a.toInt * 2 ^ k) →
    (2 ^ 64 : Int) ∣ (r.val.toInt - z) ∧
    (r.ovf = true ↔ z < -2 ^ 63 ∨ 2 ^ 63 - 1 < z) ∧
    (r.ovf = false → r.val.toInt = z)

/-- 42_compensation.md R145 and R146: the right shift is the floor and never sets `OVF`; the quotient
for `b != 0` is rounded toward zero, with the one overflow `INT_MIN / -1`. -/
def Obligations.ShiftFloorsAndDivisionTruncates : Prop :=
  (∀ (a : W64) (k : Nat), k ≤ 63 →
    (sra64 a k).ovf = false ∧ (sra64 a k).val.toInt * 2 ^ k ≤ a.toInt ∧
      a.toInt < ((sra64 a k).val.toInt + 1) * 2 ^ k) ∧
  (∀ a b : W64, b ≠ 0 → ¬(a.toInt = -2 ^ 63 ∧ b.toInt = -1) →
    (sdiv64 a b).ovf = false ∧
      (sdiv64 a b).val.toInt.natAbs = a.toInt.natAbs / b.toInt.natAbs ∧
      (0 ≤ a.toInt * b.toInt → 0 ≤ (sdiv64 a b).val.toInt) ∧
      (a.toInt * b.toInt ≤ 0 → (sdiv64 a b).val.toInt ≤ 0)) ∧
  (∀ a b : W64, a.toInt = -2 ^ 63 → b.toInt = -1 →
    (sdiv64 a b).ovf = true ∧ (sdiv64 a b).val.toInt = -2 ^ 63)

/-- The bounds of 42_compensation.md R170 under both settings of `CAL_UNSIGNED`: the fine temperature
never overflows and stays below `2^22` in magnitude. -/
def Obligations.FineTemperatureIsBounded : Prop :=
  ∀ c : CompIn, c.cfg.calUnsigned = [0, 3] ∨ c.cfg.calUnsigned = [0] →
    (compensateFine c).ovf = false ∧ -4194224 ≤ (compensateFine c).val.toInt ∧
      (compensateFine c).val.toInt ≤ 4194144

/-- Facts (a), (b), (c) of 42_compensation.md R167 for every positive divisor: zero gives +0.0, any other
dividend a normal number whose sign is the dividend's. -/
def Obligations.FloatQuotientIsZeroOrNormal : Prop :=
  ∀ n d : W64, 0 < d.toInt →
    (n = 0 → fdiv32 n d = 0x00000000) ∧
    (n ≠ 0 →
      1 ≤ floatExponent (fdiv32 n d) ∧ floatExponent (fdiv32 n d) ≤ 254 ∧
        ((fdiv32 n d).getLsbD 31 = true ↔ n.toInt < 0))

/-- The rounding of 42_compensation.md R167: no finite binary32 number is nearer the exact quotient, and
where another is as near, the result's significand is even. -/
def Obligations.FloatQuotientIsNearestEven : Prop :=
  ∀ n d : W64, 0 < d.toInt → ∀ u : Word, floatFinite u = true →
    |floatValue (fdiv32 n d) - (n.toInt : ℚ) / (d.toInt : ℚ)| ≤
      |floatValue u - (n.toInt : ℚ) / (d.toInt : ℚ)| ∧
    (|floatValue (fdiv32 n d) - (n.toInt : ℚ) / (d.toInt : ℚ)| =
        |floatValue u - (n.toInt : ℚ) / (d.toInt : ℚ)| →
      floatValue u ≠ floatValue (fdiv32 n d) → (fdiv32 n d).getLsbD 0 = false)

/-! ### The window -/

/-- 20_memory.md R63: which accesses are legal, and that any other gets a bus error and changes nothing
of the block. That a response is recorded, and that a legal write is answered by an acknowledgement, is
the model's choice (log entry 10, DESIGN CHOICE). -/
def Obligations.IllegalAccessesGetBusError : Prop :=
  ∀ (s : State) (off n : Nat) (v : Word),
    (((0x10 ≤ off ∧ off ≤ 0x2F) ∧ (n = 1 ∨ n = 2 ∨ n = 4) ∧ n ∣ off) ∨
      (¬(0x10 ≤ off ∧ off ≤ 0x2F) ∧ n = 4 ∧ 4 ∣ off ∧ off + 4 ≤ 256) →
      (∃ x, hostAccess (.read off n) s = .next (s.withResp (.value n x))) ∧
      (off ≠ 0 → ∃ t, hostAccess (.write off n v) s = .next t ∧ t.env.resp = .ack)) ∧
    (¬(((0x10 ≤ off ∧ off ≤ 0x2F) ∧ (n = 1 ∨ n = 2 ∨ n = 4) ∧ n ∣ off) ∨
      (¬(0x10 ≤ off ∧ off ≤ 0x2F) ∧ n = 4 ∧ 4 ∣ off ∧ off + 4 ≤ 256)) →
      hostAccess (.read off n) s = .next (s.withResp .busError) ∧
      hostAccess (.write off n v) s = .next (s.withResp .busError))

/-- 20_memory.md R68: a read changes nothing of the block; a write to a read-only register or a reserved
offset changes nothing either (10_state.md R41). That a write to 0x2E, 0x2F alone sets no `CMDOVR` even
while `BUSY = 1` is the model's inference (log entry 11). -/
def Obligations.ReadsAndReadOnlyWritesHaveNoEffect : Prop :=
  ∀ (s : State) (off n : Nat) (v : Word),
    (∃ r : Response, hostAccess (.read off n) s = .next (s.withResp r)) ∧
    (4 ≤ off → ¬(0x10 ≤ off ∧ off < 0x2E) →
      ∃ r : Response, hostAccess (.write off n v) s = .next (s.withResp r))

/-- 20_memory.md R67: a write to buffer bytes is dropped with `CMDOVR` while `BUSY = 1`; while
`BUSY = 0` it replaces exactly the addressed bytes, ignoring 0x2E and 0x2F; a read returns the bytes at
any time. The acknowledgement in the next states is the model's own record (log entry 10, DESIGN
CHOICE). The premise on the memory is the canonical form that `StepKeepsInvariant` keeps. -/
def Obligations.BufferWritesStoreOrDrop : Prop :=
  ∀ (s : State) (off n : Nat) (v : Word), Memory.wf s.mem = true →
    legalAccess off n = true → 0x10 ≤ off → off < 0x2E →
    (s.flags.busy = true →
      hostAccess (.write off n v) s =
        .next ((s.withResp .ack).setCmdovr)) ∧
    (s.flags.busy = false →
      ∃ m : List Host.Cell,
        hostAccess (.write off n v) s = .next { s.withResp .ack with mem := m } ∧
        (∀ j, j < n → off + j < 0x2E → Memory.read m (off + j) = byteOf v j) ∧
        (∀ a, a < off ∨ off + n ≤ a ∨ 0x2E ≤ a → Memory.read m a = Memory.read s.mem a)) ∧
    (∀ a, 0x10 ≤ a → a < 0x2E → memRead s a 1 = some ((Memory.read s.mem a).zeroExtend 32)) ∧
    memRead s 0x2E 1 = some 0 ∧ memRead s 0x2F 1 = some 0

/-- 20_memory.md R64: byte `j` of the value of an `n`-byte read belongs to offset `off + j`. That the
bytes from `n` on are 0 is the model's form of a narrow value (log entry 17). -/
def Obligations.WindowIsLittleEndian : Prop :=
  ∀ (s : State) (off n : Nat) (v : Word), memRead s off n = some v →
    (∀ j, j < n → byteOf v j = windowByte s (off + j)) ∧ (∀ j, n ≤ j → byteOf v j = 0)

/-- The layout of `STATUS` (10_state.md R29): each flag at its bit, `STAGE` at bits 23:16 with the 25
codes of 30_encoding.md R100 written out, the rest 0; and of `LOCK` (10_state.md R37, 43_lock.md R193): it shows exactly who owns the cell. -/
def Obligations.StatusAndLockLayout : Prop :=
  (∀ (f : Flags) (st : Stage),
    (statusWord f st).getLsbD 0 = f.busy ∧ (statusWord f st).getLsbD 1 = f.done ∧
    (statusWord f st).getLsbD 2 = f.err ∧ (statusWord f st).getLsbD 3 = f.failed ∧
    (statusWord f st).getLsbD 4 = f.calValid ∧ (statusWord f st).getLsbD 5 = f.rawValid ∧
    (statusWord f st).getLsbD 6 = f.resValid ∧ (statusWord f st).getLsbD 7 = f.zden ∧
    (statusWord f st).getLsbD 8 = f.ovf ∧ (statusWord f st).getLsbD 9 = f.cmdovr ∧
    (statusWord f st).getLsbD 10 = f.lockviol ∧ (statusWord f st).extractLsb' 11 5 = 0 ∧
    (statusWord f st).extractLsb' 16 8 = st.code ∧ (statusWord f st).extractLsb' 24 8 = 0) ∧
  (∀ f : Flags,
    (statusWord f .idle).extractLsb' 16 8 = 0x00 ∧ (statusWord f .calParse).extractLsb' 16 8 = 0x01 ∧
    (statusWord f .calCheck).extractLsb' 16 8 = 0x02 ∧ (statusWord f .calCommit).extractLsb' 16 8 = 0x03 ∧
    (statusWord f .rawDecode).extractLsb' 16 8 = 0x04 ∧ (statusWord f .rawCheck).extractLsb' 16 8 = 0x05 ∧
    (statusWord f .rawCommit).extractLsb' 16 8 = 0x06 ∧ (statusWord f .tS1).extractLsb' 16 8 = 0x10 ∧
    (statusWord f .tS2).extractLsb' 16 8 = 0x11 ∧ (statusWord f .tS3).extractLsb' 16 8 = 0x12 ∧
    (statusWord f .tS4).extractLsb' 16 8 = 0x13 ∧ (statusWord f .pS1).extractLsb' 16 8 = 0x14 ∧
    (statusWord f .pS2).extractLsb' 16 8 = 0x15 ∧ (statusWord f .pS3).extractLsb' 16 8 = 0x16 ∧
    (statusWord f .pS4).extractLsb' 16 8 = 0x17 ∧ (statusWord f .pS5).extractLsb' 16 8 = 0x18 ∧
    (statusWord f .pS6).extractLsb' 16 8 = 0x19 ∧ (statusWord f .pS7).extractLsb' 16 8 = 0x1A ∧
    (statusWord f .pS8).extractLsb' 16 8 = 0x1B ∧ (statusWord f .pS9).extractLsb' 16 8 = 0x1C ∧
    (statusWord f .pS10).extractLsb' 16 8 = 0x1D ∧ (statusWord f .pS11).extractLsb' 16 8 = 0x1E ∧
    (statusWord f .pS12).extractLsb' 16 8 = 0x1F ∧ (statusWord f .fcvt).extractLsb' 16 8 = 0x20 ∧
    (statusWord f .compCommit).extractLsb' 16 8 = 0x21) ∧
  (∀ (l : LockCell) (a : Byte),
    (lockWord l).getLsbD 31 = l.held ∧ (lockWord l).extractLsb' 0 8 = l.owner ∧
    (lockWord l).extractLsb' 8 23 = 0 ∧
    (lockWord l = 0x80000000#32 ||| a.zeroExtend 32 ↔ l = ⟨true, a⟩))

/-- The register map (10_state.md R40): what a 4-byte read shows at each register's offset, and 0 at
reserved offsets and at `CMD`. -/
def Obligations.RegisterMapReads : Prop :=
  ∀ s : State,
    memRead s 0x00 4 = some 0 ∧ memRead s 0x04 4 = some (statusWord s.flags s.stage) ∧
    memRead s 0x08 4 = some (s.cause.zeroExtend 32) ∧
    memRead s 0x0C 4 = some (lockWord s.lock) ∧
    memRead s 0x30 4 = some (s.raw.t.zeroExtend 32) ∧
    memRead s 0x34 4 = some (s.raw.p.zeroExtend 32) ∧
    memRead s 0x38 4 = some (s.res.tFine.extractLsb' 0 32) ∧
    memRead s 0x3C 4 = some (s.res.tFine.extractLsb' 32 32) ∧
    memRead s 0x40 4 = some (s.res.tNum.extractLsb' 0 32) ∧
    memRead s 0x44 4 = some (s.res.tNum.extractLsb' 32 32) ∧
    memRead s 0x48 4 = some (s.res.tCenti.extractLsb' 0 32) ∧
    memRead s 0x4C 4 = some (s.res.tCenti.extractLsb' 32 32) ∧
    memRead s 0x50 4 = some (s.res.pQ.extractLsb' 0 32) ∧
    memRead s 0x54 4 = some (s.res.pQ.extractLsb' 32 32) ∧
    memRead s 0x58 4 = some s.res.tFlt ∧ memRead s 0x5C 4 = some s.res.pFlt ∧
    (∀ k : Fin 12, memRead s (0x60 + 4 * k.val) 4 =
      some (if k ∈ s.cfg.calUnsigned then (s.cal.get k).zeroExtend 32
        else (s.cal.get k).signExtend 32)) ∧
    (∀ k, k < 28 → memRead s (0x90 + 4 * k) 4 = some 0) ∧
    (∀ a, a = 0x2E ∨ a = 0x2F → memRead s a 1 = some 0) ∧
    (∀ a, 0x10 ≤ a → a < 0x2E → memRead s a 1 = some ((Memory.read s.mem a).zeroExtend 32))

/-- 10_state.md R46: `CAL_W[k]` is `CAL[k]` extended by its signedness, and 0 before a set is loaded. -/
def Obligations.CoefficientWordsAreExtended : Prop :=
  ∀ (s : State) (k : Fin 12),
    (k ∈ s.cfg.calUnsigned →
      memRead s (0x60 + 4 * k.val) 4 = some ((s.cal.get k).zeroExtend 32)) ∧
    (k ∉ s.cfg.calUnsigned →
      memRead s (0x60 + 4 * k.val) 4 = some ((s.cal.get k).signExtend 32)) ∧
    (Inv s → s.flags.calValid = false → memRead s (0x60 + 4 * k.val) 4 = some 0)

/-! ### The lock over runs -/

/-- 43_lock.md R193, R198(a): an agent that owns the lock keeps it through every step that is not its
own release or a hardware reset. -/
def Obligations.OwnerKeepsLockUntilRelease : Prop :=
  ∀ (σ : Nat → State) (n : Nat) (a : Byte), Run σ n → OwnedBy a (σ 0) →
    (∀ i, i < n → ¬FreesLock a (σ i)) → OwnedBy a (σ n)

/-- 43_lock.md R198(b): if every bus operation is performed under the agent's lock (host duty R271),
then between the bus operations of two agents the first one's lock was freed, so the operations of two
transactions never interleave. Whose bus operation a step records is the model's form (log entries 13,
14). -/
def Obligations.BusTransactionsNeverInterleave : Prop :=
  ∀ (σ : Nat → State) (n : Nat) (a b : Byte) (i j : Nat), Run σ n → (∀ m, m < n → BusDuty (σ m)) →
    i < j → j < n → a ≠ b → (σ i).nextBusAgent = some a → (σ j).nextBusAgent = some b →
      ∃ m, i < m ∧ m < j ∧ FreesLock a (σ m)

/-- 43_lock.md R196, R197: the reads of `LOCK_ACQ a` and `LOCK_TRYN a, n` end in a grant exactly when
agent `a` owns the lock; otherwise `LOCK_ACQ` tries again without bound and `LOCK_TRYN` ends `Busy`
after its last try. Threads are the model's own (log entry 13). -/
def Obligations.AcquireEndsOnlyAsOwner : Prop :=
  ∀ (s : State) (rest : List Event) (k : Nat) (th : Thread) (a : Byte) (l : Line) (ls : List Line),
    s.env.inputs = .thread k :: rest → s.env.threads[k]? = some th → th.prog = l :: ls →
    l = .lockAcqRead a ∨ (∃ m, l = .lockTryNRead a m) →
    ∃ (t : State) (u : Thread),
      step s = .next t ∧ t.env.threads[k]? = some u ∧ t.lock = s.lock ∧ t.flags = s.flags ∧
      t.cause = s.cause ∧
      (OwnedBy a s → u.prog = ls ∧ u.result = some .granted) ∧
      (¬OwnedBy a s →
        (l = .lockAcqRead a → u.prog = .lockAcq a :: ls) ∧
        (l = .lockTryNRead a 0 → u.prog = ls ∧ u.result = some .busy) ∧
        (∀ m, l = .lockTryNRead a (m + 1) → u.prog = .lockTryN a (m + 1) :: ls))

/-- `WAIT` of 30_encoding.md R105: it returns when `BUSY = 0`, with the `STATUS` read last in `r`, and
reads again while `BUSY = 1`. Threads are the model's own (log entry 13). -/
def Obligations.WaitReturnsWhenNotBusy : Prop :=
  ∀ (s : State) (rest : List Event) (k : Nat) (th : Thread) (ls : List Line),
    s.env.inputs = .thread k :: rest → s.env.threads[k]? = some th → th.prog = .wait :: ls →
    ∃ (t : State) (u : Thread),
      step s = .next t ∧ t.env.threads[k]? = some u ∧ t.flags = s.flags ∧ t.stage = s.stage ∧
      u.r = statusWord s.flags s.stage ∧
      (s.flags.busy = false → u.prog = ls) ∧ (s.flags.busy = true → u.prog = .wait :: ls)
end

