-- ==== Sys2Proof/Laws/State.lean ====
section
/-! SUPPORT. What each update of the state does to each field, one lemma per field per update, so that no
proof unfolds a record update. -/

namespace Sys2Proof.Machine.State

section Updates
variable (s : State)

/-! `raiseError` -/

@[simp] theorem raiseError_cfg (e : ErrorKind) : (s.raiseError e).cfg = s.cfg := rfl
@[simp] theorem raiseError_cal (e : ErrorKind) : (s.raiseError e).cal = s.cal := rfl
@[simp] theorem raiseError_mem (e : ErrorKind) : (s.raiseError e).mem = s.mem := rfl
@[simp] theorem raiseError_raw (e : ErrorKind) : (s.raiseError e).raw = s.raw := rfl
@[simp] theorem raiseError_res (e : ErrorKind) : (s.raiseError e).res = s.res := rfl
@[simp] theorem raiseError_flags (e : ErrorKind) :
    (s.raiseError e).flags = { s.flags with busy := false, done := false, err := true, failed := s.flags.failed || e.fatal } := rfl
@[simp] theorem raiseError_stage (e : ErrorKind) :
    (s.raiseError e).stage = .idle := rfl
@[simp] theorem raiseError_cause (e : ErrorKind) :
    (s.raiseError e).cause = e.code := rfl
@[simp] theorem raiseError_lock (e : ErrorKind) : (s.raiseError e).lock = s.lock := rfl
@[simp] theorem raiseError_tmp (e : ErrorKind) : (s.raiseError e).tmp = s.tmp := rfl
@[simp] theorem raiseError_free (e : ErrorKind) : (s.raiseError e).free = s.free := rfl
@[simp] theorem raiseError_env (e : ErrorKind) : (s.raiseError e).env = s.env := rfl

/-! `clearError` -/

@[simp] theorem clearError_cfg : (s.clearError).cfg = s.cfg := rfl
@[simp] theorem clearError_cal : (s.clearError).cal = s.cal := rfl
@[simp] theorem clearError_mem : (s.clearError).mem = s.mem := rfl
@[simp] theorem clearError_raw : (s.clearError).raw = s.raw := rfl
@[simp] theorem clearError_res : (s.clearError).res = s.res := rfl
@[simp] theorem clearError_flags :
    (s.clearError).flags = { s.flags with err := false, done := false, cmdovr := false, lockviol := false } := rfl
@[simp] theorem clearError_stage : (s.clearError).stage = s.stage := rfl
@[simp] theorem clearError_cause :
    (s.clearError).cause = 0 := rfl
@[simp] theorem clearError_lock : (s.clearError).lock = s.lock := rfl
@[simp] theorem clearError_tmp : (s.clearError).tmp = s.tmp := rfl
@[simp] theorem clearError_free : (s.clearError).free = s.free := rfl
@[simp] theorem clearError_env : (s.clearError).env = s.env := rfl

/-! `accept` -/

@[simp] theorem accept_cfg (st : Stage) : (s.accept st).cfg = s.cfg := rfl
@[simp] theorem accept_cal (st : Stage) : (s.accept st).cal = s.cal := rfl
@[simp] theorem accept_mem (st : Stage) : (s.accept st).mem = s.mem := rfl
@[simp] theorem accept_raw (st : Stage) : (s.accept st).raw = s.raw := rfl
@[simp] theorem accept_res (st : Stage) : (s.accept st).res = s.res := rfl
@[simp] theorem accept_flags (st : Stage) :
    (s.accept st).flags = { s.flags with busy := true, done := false, err := false } := rfl
@[simp] theorem accept_stage (st : Stage) :
    (s.accept st).stage = st := rfl
@[simp] theorem accept_cause (st : Stage) :
    (s.accept st).cause = 0 := rfl
@[simp] theorem accept_lock (st : Stage) : (s.accept st).lock = s.lock := rfl
@[simp] theorem accept_tmp (st : Stage) : (s.accept st).tmp = s.tmp := rfl
@[simp] theorem accept_free (st : Stage) : (s.accept st).free = s.free := rfl
@[simp] theorem accept_env (st : Stage) : (s.accept st).env = s.env := rfl

/-! `finish` -/

@[simp] theorem finish_cfg : (s.finish).cfg = s.cfg := rfl
@[simp] theorem finish_cal : (s.finish).cal = s.cal := rfl
@[simp] theorem finish_mem : (s.finish).mem = s.mem := rfl
@[simp] theorem finish_raw : (s.finish).raw = s.raw := rfl
@[simp] theorem finish_res : (s.finish).res = s.res := rfl
@[simp] theorem finish_flags :
    (s.finish).flags = { s.flags with busy := false, done := true } := rfl
@[simp] theorem finish_stage :
    (s.finish).stage = .idle := rfl
@[simp] theorem finish_cause : (s.finish).cause = s.cause := rfl
@[simp] theorem finish_lock : (s.finish).lock = s.lock := rfl
@[simp] theorem finish_tmp : (s.finish).tmp = s.tmp := rfl
@[simp] theorem finish_free : (s.finish).free = s.free := rfl
@[simp] theorem finish_env : (s.finish).env = s.env := rfl

/-! `forgetTemps` -/

@[simp] theorem forgetTemps_cfg : (s.forgetTemps).cfg = s.cfg := rfl
@[simp] theorem forgetTemps_cal : (s.forgetTemps).cal = s.cal := rfl
@[simp] theorem forgetTemps_mem : (s.forgetTemps).mem = s.mem := rfl
@[simp] theorem forgetTemps_raw : (s.forgetTemps).raw = s.raw := rfl
@[simp] theorem forgetTemps_res : (s.forgetTemps).res = s.res := rfl
@[simp] theorem forgetTemps_flags : (s.forgetTemps).flags = s.flags := rfl
@[simp] theorem forgetTemps_stage : (s.forgetTemps).stage = s.stage := rfl
@[simp] theorem forgetTemps_cause : (s.forgetTemps).cause = s.cause := rfl
@[simp] theorem forgetTemps_lock : (s.forgetTemps).lock = s.lock := rfl
@[simp] theorem forgetTemps_tmp :
    (s.forgetTemps).tmp = freeTemps s.free := rfl
@[simp] theorem forgetTemps_free :
    (s.forgetTemps).free = s.free + 1 := rfl
@[simp] theorem forgetTemps_env : (s.forgetTemps).env = s.env := rfl

/-! `softReset` -/

@[simp] theorem softReset_cfg : (s.softReset).cfg = s.cfg := rfl
@[simp] theorem softReset_cal :
    (s.softReset).cal = CalSet.zero := rfl
@[simp] theorem softReset_mem :
    (s.softReset).mem = [] := rfl
@[simp] theorem softReset_raw :
    (s.softReset).raw = Raw.zero := rfl
@[simp] theorem softReset_res :
    (s.softReset).res = Results.zero := rfl
@[simp] theorem softReset_flags :
    (s.softReset).flags = Flags.zero := rfl
@[simp] theorem softReset_stage :
    (s.softReset).stage = .idle := rfl
@[simp] theorem softReset_cause :
    (s.softReset).cause = 0 := rfl
@[simp] theorem softReset_lock : (s.softReset).lock = s.lock := rfl
@[simp] theorem softReset_tmp :
    (s.softReset).tmp = freeTemps s.free := rfl
@[simp] theorem softReset_free :
    (s.softReset).free = s.free + 1 := rfl
@[simp] theorem softReset_env : (s.softReset).env = s.env := rfl

/-! `hardReset` -/

@[simp] theorem hardReset_cfg : (s.hardReset).cfg = s.cfg := rfl
@[simp] theorem hardReset_cal :
    (s.hardReset).cal = CalSet.zero := rfl
@[simp] theorem hardReset_mem :
    (s.hardReset).mem = [] := rfl
@[simp] theorem hardReset_raw :
    (s.hardReset).raw = Raw.zero := rfl
@[simp] theorem hardReset_res :
    (s.hardReset).res = Results.zero := rfl
@[simp] theorem hardReset_flags :
    (s.hardReset).flags = Flags.zero := rfl
@[simp] theorem hardReset_stage :
    (s.hardReset).stage = .idle := rfl
@[simp] theorem hardReset_cause :
    (s.hardReset).cause = 0 := rfl
@[simp] theorem hardReset_lock :
    (s.hardReset).lock = LockCell.zero := rfl
@[simp] theorem hardReset_tmp :
    (s.hardReset).tmp = freeTemps s.free := rfl
@[simp] theorem hardReset_free :
    (s.hardReset).free = s.free + 1 := rfl
@[simp] theorem hardReset_env : (s.hardReset).env = s.env := rfl

/-! `setCmdovr` -/

@[simp] theorem setCmdovr_cfg : (s.setCmdovr).cfg = s.cfg := rfl
@[simp] theorem setCmdovr_cal : (s.setCmdovr).cal = s.cal := rfl
@[simp] theorem setCmdovr_mem : (s.setCmdovr).mem = s.mem := rfl
@[simp] theorem setCmdovr_raw : (s.setCmdovr).raw = s.raw := rfl
@[simp] theorem setCmdovr_res : (s.setCmdovr).res = s.res := rfl
@[simp] theorem setCmdovr_flags :
    (s.setCmdovr).flags = { s.flags with cmdovr := true } := rfl
@[simp] theorem setCmdovr_stage : (s.setCmdovr).stage = s.stage := rfl
@[simp] theorem setCmdovr_cause : (s.setCmdovr).cause = s.cause := rfl
@[simp] theorem setCmdovr_lock : (s.setCmdovr).lock = s.lock := rfl
@[simp] theorem setCmdovr_tmp : (s.setCmdovr).tmp = s.tmp := rfl
@[simp] theorem setCmdovr_free : (s.setCmdovr).free = s.free := rfl
@[simp] theorem setCmdovr_env : (s.setCmdovr).env = s.env := rfl

/-! `setLockviol` -/

@[simp] theorem setLockviol_cfg : (s.setLockviol).cfg = s.cfg := rfl
@[simp] theorem setLockviol_cal : (s.setLockviol).cal = s.cal := rfl
@[simp] theorem setLockviol_mem : (s.setLockviol).mem = s.mem := rfl
@[simp] theorem setLockviol_raw : (s.setLockviol).raw = s.raw := rfl
@[simp] theorem setLockviol_res : (s.setLockviol).res = s.res := rfl
@[simp] theorem setLockviol_flags :
    (s.setLockviol).flags = { s.flags with lockviol := true } := rfl
@[simp] theorem setLockviol_stage : (s.setLockviol).stage = s.stage := rfl
@[simp] theorem setLockviol_cause : (s.setLockviol).cause = s.cause := rfl
@[simp] theorem setLockviol_lock : (s.setLockviol).lock = s.lock := rfl
@[simp] theorem setLockviol_tmp : (s.setLockviol).tmp = s.tmp := rfl
@[simp] theorem setLockviol_free : (s.setLockviol).free = s.free := rfl
@[simp] theorem setLockviol_env : (s.setLockviol).env = s.env := rfl

/-! `withInputs` -/

@[simp] theorem withInputs_cfg (es : List Event) : (s.withInputs es).cfg = s.cfg := rfl
@[simp] theorem withInputs_cal (es : List Event) : (s.withInputs es).cal = s.cal := rfl
@[simp] theorem withInputs_mem (es : List Event) : (s.withInputs es).mem = s.mem := rfl
@[simp] theorem withInputs_raw (es : List Event) : (s.withInputs es).raw = s.raw := rfl
@[simp] theorem withInputs_res (es : List Event) : (s.withInputs es).res = s.res := rfl
@[simp] theorem withInputs_flags (es : List Event) : (s.withInputs es).flags = s.flags := rfl
@[simp] theorem withInputs_stage (es : List Event) : (s.withInputs es).stage = s.stage := rfl
@[simp] theorem withInputs_cause (es : List Event) : (s.withInputs es).cause = s.cause := rfl
@[simp] theorem withInputs_lock (es : List Event) : (s.withInputs es).lock = s.lock := rfl
@[simp] theorem withInputs_tmp (es : List Event) : (s.withInputs es).tmp = s.tmp := rfl
@[simp] theorem withInputs_free (es : List Event) : (s.withInputs es).free = s.free := rfl
@[simp] theorem withInputs_env (es : List Event) :
    (s.withInputs es).env = { s.env with inputs := es } := rfl

/-! `withOrder` -/

@[simp] theorem withOrder_cfg (o : Option Nat) : (s.withOrder o).cfg = s.cfg := rfl
@[simp] theorem withOrder_cal (o : Option Nat) : (s.withOrder o).cal = s.cal := rfl
@[simp] theorem withOrder_mem (o : Option Nat) : (s.withOrder o).mem = s.mem := rfl
@[simp] theorem withOrder_raw (o : Option Nat) : (s.withOrder o).raw = s.raw := rfl
@[simp] theorem withOrder_res (o : Option Nat) : (s.withOrder o).res = s.res := rfl
@[simp] theorem withOrder_flags (o : Option Nat) : (s.withOrder o).flags = s.flags := rfl
@[simp] theorem withOrder_stage (o : Option Nat) : (s.withOrder o).stage = s.stage := rfl
@[simp] theorem withOrder_cause (o : Option Nat) : (s.withOrder o).cause = s.cause := rfl
@[simp] theorem withOrder_lock (o : Option Nat) : (s.withOrder o).lock = s.lock := rfl
@[simp] theorem withOrder_tmp (o : Option Nat) : (s.withOrder o).tmp = s.tmp := rfl
@[simp] theorem withOrder_free (o : Option Nat) : (s.withOrder o).free = s.free := rfl
@[simp] theorem withOrder_env (o : Option Nat) :
    (s.withOrder o).env = { s.env with order := o } := rfl

/-! `withResp` -/

@[simp] theorem withResp_cfg (r : Response) : (s.withResp r).cfg = s.cfg := rfl
@[simp] theorem withResp_cal (r : Response) : (s.withResp r).cal = s.cal := rfl
@[simp] theorem withResp_mem (r : Response) : (s.withResp r).mem = s.mem := rfl
@[simp] theorem withResp_raw (r : Response) : (s.withResp r).raw = s.raw := rfl
@[simp] theorem withResp_res (r : Response) : (s.withResp r).res = s.res := rfl
@[simp] theorem withResp_flags (r : Response) : (s.withResp r).flags = s.flags := rfl
@[simp] theorem withResp_stage (r : Response) : (s.withResp r).stage = s.stage := rfl
@[simp] theorem withResp_cause (r : Response) : (s.withResp r).cause = s.cause := rfl
@[simp] theorem withResp_lock (r : Response) : (s.withResp r).lock = s.lock := rfl
@[simp] theorem withResp_tmp (r : Response) : (s.withResp r).tmp = s.tmp := rfl
@[simp] theorem withResp_free (r : Response) : (s.withResp r).free = s.free := rfl
@[simp] theorem withResp_env (r : Response) :
    (s.withResp r).env = { s.env with resp := r } := rfl

/-! `withThread` -/

@[simp] theorem withThread_cfg (k : Nat) (th : Thread) : (s.withThread k th).cfg = s.cfg := rfl
@[simp] theorem withThread_cal (k : Nat) (th : Thread) : (s.withThread k th).cal = s.cal := rfl
@[simp] theorem withThread_mem (k : Nat) (th : Thread) : (s.withThread k th).mem = s.mem := rfl
@[simp] theorem withThread_raw (k : Nat) (th : Thread) : (s.withThread k th).raw = s.raw := rfl
@[simp] theorem withThread_res (k : Nat) (th : Thread) : (s.withThread k th).res = s.res := rfl
@[simp] theorem withThread_flags (k : Nat) (th : Thread) : (s.withThread k th).flags = s.flags := rfl
@[simp] theorem withThread_stage (k : Nat) (th : Thread) : (s.withThread k th).stage = s.stage := rfl
@[simp] theorem withThread_cause (k : Nat) (th : Thread) : (s.withThread k th).cause = s.cause := rfl
@[simp] theorem withThread_lock (k : Nat) (th : Thread) : (s.withThread k th).lock = s.lock := rfl
@[simp] theorem withThread_tmp (k : Nat) (th : Thread) : (s.withThread k th).tmp = s.tmp := rfl
@[simp] theorem withThread_free (k : Nat) (th : Thread) : (s.withThread k th).free = s.free := rfl
@[simp] theorem withThread_env (k : Nat) (th : Thread) :
    (s.withThread k th).env = { s.env with threads := s.env.threads.set k th } := rfl

/-! `logBus` -/

@[simp] theorem logBus_cfg (a : Byte) (op : BusOp) : (s.logBus a op).cfg = s.cfg := rfl
@[simp] theorem logBus_cal (a : Byte) (op : BusOp) : (s.logBus a op).cal = s.cal := rfl
@[simp] theorem logBus_mem (a : Byte) (op : BusOp) : (s.logBus a op).mem = s.mem := rfl
@[simp] theorem logBus_raw (a : Byte) (op : BusOp) : (s.logBus a op).raw = s.raw := rfl
@[simp] theorem logBus_res (a : Byte) (op : BusOp) : (s.logBus a op).res = s.res := rfl
@[simp] theorem logBus_flags (a : Byte) (op : BusOp) : (s.logBus a op).flags = s.flags := rfl
@[simp] theorem logBus_stage (a : Byte) (op : BusOp) : (s.logBus a op).stage = s.stage := rfl
@[simp] theorem logBus_cause (a : Byte) (op : BusOp) : (s.logBus a op).cause = s.cause := rfl
@[simp] theorem logBus_lock (a : Byte) (op : BusOp) : (s.logBus a op).lock = s.lock := rfl
@[simp] theorem logBus_tmp (a : Byte) (op : BusOp) : (s.logBus a op).tmp = s.tmp := rfl
@[simp] theorem logBus_free (a : Byte) (op : BusOp) : (s.logBus a op).free = s.free := rfl
@[simp] theorem logBus_env (a : Byte) (op : BusOp) :
    (s.logBus a op).env = { s.env with busLog := ⟨a, op⟩ :: s.env.busLog } := rfl

/-! `withPipe` -/

@[simp] theorem withPipe_cfg (p : Pipe) : (s.withPipe p).cfg = s.cfg := rfl
@[simp] theorem withPipe_cal (p : Pipe) : (s.withPipe p).cal = s.cal := rfl
@[simp] theorem withPipe_mem (p : Pipe) : (s.withPipe p).mem = s.mem := rfl
@[simp] theorem withPipe_raw (p : Pipe) : (s.withPipe p).raw = s.raw := rfl
@[simp] theorem withPipe_res (p : Pipe) : (s.withPipe p).res = s.res := rfl
@[simp] theorem withPipe_flags (p : Pipe) :
    (s.withPipe p).flags = { s.flags with zden := p.zden, ovf := p.ovf } := rfl
@[simp] theorem withPipe_stage (p : Pipe) :
    (s.withPipe p).stage = p.stage := rfl
@[simp] theorem withPipe_cause (p : Pipe) : (s.withPipe p).cause = s.cause := rfl
@[simp] theorem withPipe_lock (p : Pipe) : (s.withPipe p).lock = s.lock := rfl
@[simp] theorem withPipe_tmp (p : Pipe) :
    (s.withPipe p).tmp = p.tmp := rfl
@[simp] theorem withPipe_free (p : Pipe) : (s.withPipe p).free = s.free := rfl
@[simp] theorem withPipe_env (p : Pipe) : (s.withPipe p).env = s.env := rfl

/-! `startRawld` -/

@[simp] theorem startRawld_cfg : (s.startRawld).cfg = s.cfg := rfl
@[simp] theorem startRawld_cal : (s.startRawld).cal = s.cal := rfl
@[simp] theorem startRawld_mem : (s.startRawld).mem = s.mem := rfl
@[simp] theorem startRawld_raw :
    (s.startRawld).raw = Raw.zero := rfl
@[simp] theorem startRawld_res : (s.startRawld).res = s.res := rfl
@[simp] theorem startRawld_flags :
    (s.startRawld).flags = { s.flags with busy := true, done := false, err := false, rawValid := false } := rfl
@[simp] theorem startRawld_stage :
    (s.startRawld).stage = .rawDecode := rfl
@[simp] theorem startRawld_cause :
    (s.startRawld).cause = 0 := rfl
@[simp] theorem startRawld_lock : (s.startRawld).lock = s.lock := rfl
@[simp] theorem startRawld_tmp : (s.startRawld).tmp = s.tmp := rfl
@[simp] theorem startRawld_free : (s.startRawld).free = s.free := rfl
@[simp] theorem startRawld_env : (s.startRawld).env = s.env := rfl

/-! `startComp` -/

@[simp] theorem startComp_cfg : (s.startComp).cfg = s.cfg := rfl
@[simp] theorem startComp_cal : (s.startComp).cal = s.cal := rfl
@[simp] theorem startComp_mem : (s.startComp).mem = s.mem := rfl
@[simp] theorem startComp_raw : (s.startComp).raw = s.raw := rfl
@[simp] theorem startComp_res :
    (s.startComp).res = Results.zero := rfl
@[simp] theorem startComp_flags :
    (s.startComp).flags = { s.flags with busy := true, done := false, err := false, resValid := false, zden := false, ovf := false } := rfl
@[simp] theorem startComp_stage :
    (s.startComp).stage = .tS1 := rfl
@[simp] theorem startComp_cause :
    (s.startComp).cause = 0 := rfl
@[simp] theorem startComp_lock : (s.startComp).lock = s.lock := rfl
@[simp] theorem startComp_tmp : (s.startComp).tmp = s.tmp := rfl
@[simp] theorem startComp_free : (s.startComp).free = s.free := rfl
@[simp] theorem startComp_env : (s.startComp).env = s.env := rfl

end Updates

/-! The two conditional updates of the lock cell. -/

theorem tryLock_free {s : State} (a : Byte) (h : s.lock.held = false) :
    s.tryLock a = { s with lock := ⟨true, a⟩ } := by simp [tryLock, h]

theorem tryLock_held {s : State} (a : Byte) (h : s.lock.held = true) : s.tryLock a = s := by
  simp [tryLock, h]

theorem releaseLock_owner {s : State} {a : Byte} (h : s.lock.held = true) (ho : s.lock.owner = a) :
    s.releaseLock a = { s with lock := LockCell.zero } := by simp [releaseLock, h, ho]

theorem releaseLock_other {s : State} {a : Byte} (h : ¬(s.lock.held = true ∧ s.lock.owner = a)) :
    s.releaseLock a = s.setLockviol := by
  simp only [releaseLock, Bool.and_eq_true, beq_iff_eq, if_neg h]

/-- The input taken off and the list put back is the state as it was. -/
@[simp] theorem withInputs_withInputs (s : State) (es fs : List Event) :
    (s.withInputs es).withInputs fs = s.withInputs fs := rfl

@[simp] theorem withInputs_inputs (s : State) : s.withInputs s.env.inputs = s := rfl

end Sys2Proof.Machine.State
end

