-- ==== Sys2Proof/Laws/Memory.lean ====
section
/-! SUPPORT. The laws of the buffer memory: a read after a write, and that every memory operation keeps
the canonical form. -/

namespace Sys2Proof.Machine.Memory

theorem wfFrom_mono {lo hi : Nat} {m : List Host.Cell} (h : wfFrom hi m = true) (hl : lo ≤ hi) :
    wfFrom lo m = true := by
  cases m with
  | nil => rfl
  | cons c rest =>
    simp only [wfFrom, Bool.and_eq_true, decide_eq_true_eq] at h ⊢
    exact ⟨⟨⟨le_trans hl h.1.1.1, h.1.1.2⟩, h.1.2⟩, h.2⟩

/-- An address below all entries reads as unlisted. -/
theorem read_below {lo : Nat} {m : List Host.Cell} (h : wfFrom lo m = true) {a : Nat} (ha : a < lo) :
    read m a = unlisted := by
  induction m generalizing lo with
  | nil => rfl
  | cons c rest ih =>
    simp only [wfFrom, Bool.and_eq_true, decide_eq_true_eq] at h
    have : c.1 ≠ a := by omega
    simp only [read, if_neg this]
    exact ih h.2 (by omega)

theorem wfFrom_erase {lo : Nat} {m : List Host.Cell} (h : wfFrom lo m = true) (a : Nat) :
    wfFrom lo (erase m a) = true := by
  induction m generalizing lo with
  | nil => rfl
  | cons c rest ih =>
    simp only [wfFrom, Bool.and_eq_true, decide_eq_true_eq] at h
    by_cases hc : c.1 = a
    · simp only [erase, if_pos hc]
      exact wfFrom_mono h.2 (by omega)
    · simp only [erase, if_neg hc, wfFrom, Bool.and_eq_true, decide_eq_true_eq]
      exact ⟨h.1, ih h.2⟩

theorem wfFrom_insert {lo : Nat} {m : List Host.Cell} (h : wfFrom lo m = true) {a : Nat} {v : Byte}
    (ha : lo ≤ a) (hb : isBufferByte a = true) (hv : v ≠ unlisted) :
    wfFrom lo (insert m a v) = true := by
  induction m generalizing lo with
  | nil => simp [insert, wfFrom, ha, hb, hv]
  | cons c rest ih =>
    simp only [wfFrom, Bool.and_eq_true, decide_eq_true_eq] at h
    by_cases hlt : c.1 < a
    · simp only [insert, if_pos hlt, wfFrom, Bool.and_eq_true, decide_eq_true_eq]
      exact ⟨h.1, ih h.2 (by omega)⟩
    · by_cases hc : c.1 = a
      · subst hc
        simp [insert, wfFrom, ha, hb, hv, h.2]
      · simp only [insert, if_neg hlt, if_neg hc, wfFrom, Bool.and_eq_true, decide_eq_true_eq,
          bne_iff_ne]
        have hcv : c.2 ≠ unlisted := by simpa using h.1.2
        exact ⟨⟨⟨ha, hb⟩, hv⟩, ⟨⟨by omega, h.1.1.2⟩, hcv⟩, h.2⟩

/-- A write to a buffer byte keeps the canonical form. -/
theorem wf_write {m : List Host.Cell} (h : wf m = true) {a : Nat} (hb : isBufferByte a = true)
    (v : Byte) : wf (write m a v) = true := by
  unfold write
  split
  · exact wfFrom_erase h a
  · next hv => exact wfFrom_insert h (Nat.zero_le a) hb hv

theorem read_erase_same {lo : Nat} {m : List Host.Cell} (h : wfFrom lo m = true) (a : Nat) :
    read (erase m a) a = unlisted := by
  induction m generalizing lo with
  | nil => rfl
  | cons c rest ih =>
    simp only [wfFrom, Bool.and_eq_true, decide_eq_true_eq] at h
    by_cases hc : c.1 = a
    · simp only [erase, if_pos hc]
      exact read_below h.2 (by omega)
    · simp only [erase, if_neg hc, read]
      exact ih h.2

theorem read_erase_other (m : List Host.Cell) {a b : Nat} (hne : b ≠ a) :
    read (erase m a) b = read m b := by
  induction m with
  | nil => rfl
  | cons c rest ih =>
    by_cases hc : c.1 = a
    · have : c.1 ≠ b := by omega
      simp [erase, read, hc, if_neg (Ne.symm hne)]
    · simp only [erase, if_neg hc, read, ih]

theorem read_insert_same (m : List Host.Cell) (a : Nat) (v : Byte) : read (insert m a v) a = v := by
  induction m with
  | nil => simp [insert, read]
  | cons c rest ih =>
    by_cases hlt : c.1 < a
    · have : c.1 ≠ a := by omega
      simp only [insert, if_pos hlt, read, if_neg this, ih]
    · by_cases hc : c.1 = a <;> simp [insert, read, hlt, hc]

theorem read_insert_other (m : List Host.Cell) {a b : Nat} (v : Byte) (hne : b ≠ a) :
    read (insert m a v) b = read m b := by
  induction m with
  | nil => simp [insert, read, Ne.symm hne]
  | cons c rest ih =>
    by_cases hlt : c.1 < a
    · simp only [insert, if_pos hlt, read, ih]
    · by_cases hc : c.1 = a <;> simp [insert, read, hlt, hc, Ne.symm hne]

/-- A read after a write to the same offset gives the value written. -/
theorem read_write_same {m : List Host.Cell} (h : wf m = true) (a : Nat) (v : Byte) :
    read (write m a v) a = v := by
  unfold write
  split
  · next hv => rw [hv]; exact read_erase_same h a
  · exact read_insert_same m a v

/-- A write leaves every other offset alone. -/
theorem read_write_other (m : List Host.Cell) {a b : Nat} (v : Byte) (hne : b ≠ a) :
    read (write m a v) b = read m b := by
  unfold write
  split
  · exact read_erase_other m hne
  · exact read_insert_other m v hne

@[simp] theorem read_nil (a : Nat) : read [] a = 0 := rfl

/-- Storing bytes keeps the canonical form. -/
theorem wf_storeBytes {m : List Host.Cell} (h : wf m = true) (off : Nat) (v : Word) (n : Nat) :
    wf (storeBytes m off v n) = true := by
  induction n with
  | zero => exact h
  | succ n ih =>
    simp only [storeBytes]
    split
    · next hb => exact wf_write ih hb _
    · exact ih

/-- What storing `n` bytes leaves at each offset: byte `j` of the value at buffer offset `off + j`,
everything else as before. -/
theorem read_storeBytes {m : List Host.Cell} (h : wf m = true) (off : Nat) (v : Word) (n a : Nat) :
    read (storeBytes m off v n) a =
      if off ≤ a ∧ a < off + n ∧ isBufferByte a = true then byteOf v (a - off) else read m a := by
  induction n with
  | zero =>
    have : ¬(off ≤ a ∧ a < off + 0 ∧ isBufferByte a = true) := by omega
    rw [if_neg this]
    rfl
  | succ n ih =>
    simp only [storeBytes]
    by_cases hb : isBufferByte (off + n) = true
    · rw [if_pos hb]
      by_cases ha : a = off + n
      · subst ha
        rw [read_write_same (wf_storeBytes h off v n)]
        simp [hb]
      · rw [read_write_other _ _ ha, ih]
        congr 1
        apply propext
        constructor <;> rintro ⟨h1, h2, h3⟩ <;> exact ⟨h1, by omega, h3⟩
    · rw [if_neg hb, ih]
      congr 1
      apply propext
      constructor
      · rintro ⟨h1, h2, h3⟩; exact ⟨h1, by omega, h3⟩
      · rintro ⟨h1, h2, h3⟩
        have : a ≠ off + n := by rintro rfl; exact hb h3
        exact ⟨h1, by omega, h3⟩

end Sys2Proof.Machine.Memory
end

