-- ==== Sys2Proof/Laws/Ops.lean ====
section
/-! SUPPORT. One lemma per shared operation that says once everything it can do; the provers cite these
instead of unfolding the operations. The last two package what a step can do: a property that a handful
of block operations keep is kept by every command word and by every step. -/

namespace Sys2Proof.Machine

/-! ### Small facts about the stage register -/

/-- The stages of the datapath, `T_S1` to `FCVT`. -/
def Stage.isDatapath (st : Stage) : Bool :=
  decide (st.command = some .comp) && decide (st ≠ .compCommit)

theorem Stage.command_eq_none {st : Stage} : st.command = none ↔ st = .idle := by
  cases st <;> decide

/-! ### The engine gate and the accepts -/

theorem engineGate_busy {s : State} (k : Host.Outcome State Fault Refusal) (h : s.flags.busy = true) :
    engineGate s k = .next s.setCmdovr := by simp [engineGate, h]

theorem engineGate_failed {s : State} (k : Host.Outcome State Fault Refusal)
    (h : s.flags.busy = false) (hf : s.flags.failed = true) : engineGate s k = .next s := by
  simp [engineGate, h, hf]

theorem engineGate_open {s : State} (k : Host.Outcome State Fault Refusal)
    (h : s.flags.busy = false) (hf : s.flags.failed = false) : engineGate s k = k := by
  simp [engineGate, h, hf]

/-- Everything the gate can answer. -/
theorem engineGate_cases (s : State) (k : Host.Outcome State Fault Refusal) :
    (s.flags.busy = true ∧ engineGate s k = .next s.setCmdovr) ∨
    (s.flags.busy = false ∧ s.flags.failed = true ∧ engineGate s k = .next s) ∨
    (s.flags.busy = false ∧ s.flags.failed = false ∧ engineGate s k = k) := by
  cases h : s.flags.busy
  · cases hf : s.flags.failed
    · exact .inr (.inr ⟨rfl, rfl, engineGate_open k h hf⟩)
    · exact .inr (.inl ⟨rfl, rfl, engineGate_failed k h hf⟩)
  · exact .inl ⟨rfl, engineGate_busy k h⟩

theorem launch_staged {s : State} (h : s.cfg.stageAtomic = false) : launch s = .next s := by
  simp [launch, h]

theorem launch_atomic {s : State} (h : s.cfg.stageAtomic = true) :
    launch s = sequencerTurns maxStages s := by simp [launch, h]

/-! ### The sequencer -/

/-- The state one stage leads to; `sequencerStep` is this wherever a stage is named. -/
def stageEffect (s : State) : State :=
  match s.stage with
  | .calParse => stageCalParse s
  | .calCheck => stageCalCheck s
  | .calCommit => stageCalCommit s
  | .rawDecode => stageRawDecode s
  | .rawCheck => stageRawCheck s
  | .rawCommit => stageRawCommit s
  | .compCommit => stageCompCommit s
  | _ => stageDatapath s

theorem sequencerStep_eq {s : State} (h : s.stage ≠ .idle) : sequencerStep s = .next (stageEffect s) := by
  unfold sequencerStep stageEffect
  split <;> simp_all

/-- Everything a step of the sequencer can be, by the stage it performs. -/
theorem sequencerStep_next {s t : State} (h : sequencerStep s = .next t) :
    (s.stage = .calParse ∧ t = stageCalParse s) ∨ (s.stage = .calCheck ∧ t = stageCalCheck s) ∨
    (s.stage = .calCommit ∧ t = stageCalCommit s) ∨ (s.stage = .rawDecode ∧ t = stageRawDecode s) ∨
    (s.stage = .rawCheck ∧ t = stageRawCheck s) ∨ (s.stage = .rawCommit ∧ t = stageRawCommit s) ∨
    (s.stage.isDatapath = true ∧ t = stageDatapath s) ∨
    (s.stage = .compCommit ∧ t = stageCompCommit s) := by
  unfold sequencerStep at h
  split at h <;> rename_i hs <;> cases h <;> simp [hs, Stage.isDatapath, Stage.command]

theorem sequencerStep_no_refusal (s : State) (r : Refusal) : sequencerStep s ≠ .refused r := by
  unfold sequencerStep
  split <;> simp

theorem sequencerTurn_idle {s : State} (h : s.flags.busy = false) : sequencerTurn s = .next s := by
  simp [sequencerTurn, h]

theorem sequencerTurn_busy {s : State} (h : s.flags.busy = true) : sequencerTurn s = sequencerStep s := by
  simp [sequencerTurn, h]

theorem sequencerTurns_idle {s : State} (n : Nat) (h : s.flags.busy = false) :
    sequencerTurns n s = .next s := by
  induction n with
  | zero => rfl
  | succ n ih => simp [sequencerTurns, sequencerTurn_idle h, ih]

theorem sequencerTurns_succ {s t : State} (n : Nat) (h : sequencerTurn s = .next t) :
    sequencerTurns (n + 1) s = sequencerTurns n t := by simp [sequencerTurns, h]

/-- A property every sequencer step keeps is kept by any number of turns. -/
theorem sequencerTurns_keeps {P : State → Prop}
    (hP : ∀ s t, P s → s.flags.busy = true → sequencerStep s = .next t → P t) :
    ∀ (n : Nat) (s t : State), P s → sequencerTurns n s = .next t → P t := by
  intro n
  induction n with
  | zero => rintro s t hs h; cases h; exact hs
  | succ n ih =>
    intro s t hs h
    cases hb : s.flags.busy with
    | false => rw [sequencerTurns_idle _ hb] at h; cases h; exact hs
    | true =>
      simp only [sequencerTurns, sequencerTurn_busy hb] at h
      cases hq : sequencerStep s with
      | next u => rw [hq] at h; exact ih u t (hP s u hs hb hq) h
      | fault f => rw [hq] at h; cases h
      | refused r => rw [hq] at h; cases h

/-- A property every sequencer step keeps is kept by the start of a command. -/
theorem launch_keeps {P : State → Prop}
    (hP : ∀ s t, P s → s.flags.busy = true → sequencerStep s = .next t → P t)
    {s t : State} (hs : P s) (h : launch s = .next t) : P t := by
  cases ha : s.cfg.stageAtomic with
  | false => rw [launch_staged ha] at h; cases h; exact hs
  | true => rw [launch_atomic ha] at h; exact sequencerTurns_keeps hP _ _ _ hs h

/-! ### The commands -/

/-- Everything the accept of `CALLD` can answer. -/
theorem acceptCalld_next {s t : State} (h : acceptCalld s = .next t) :
    (s.flags.calValid = true ∧ t = s.raiseError .calLocked) ∨
    (s.flags.calValid = false ∧ launch (s.accept .calParse) = .next t) := by
  unfold acceptCalld at h
  split at h
  · next hc => cases h; exact .inl ⟨hc, rfl⟩
  · next hc => exact .inr ⟨by simpa using hc, h⟩

/-- Everything the accept of `RAWLD` can answer. -/
theorem acceptRawld_next {s t : State} (h : acceptRawld s = .next t) :
    (s.flags.calValid = false ∧ t = s.raiseError .notReady) ∨
    (s.flags.calValid = true ∧ launch s.startRawld = .next t) := by
  unfold acceptRawld at h
  split at h
  · next hc => exact .inr ⟨hc, h⟩
  · next hc => cases h; exact .inl ⟨by simpa using hc, rfl⟩

/-- Everything the accept of `COMP` can answer. -/
theorem acceptComp_next {s t : State} (h : acceptComp s = .next t) :
    (s.flags.calValid = false ∧ t = s.raiseError .notReady) ∨
    (s.flags.calValid = true ∧ s.flags.rawValid = false ∧ t = s.raiseError .rawMissing) ∨
    (s.flags.calValid = true ∧ s.flags.rawValid = true ∧ launch s.startComp = .next t) := by
  unfold acceptComp at h
  cases hc : s.flags.calValid with
  | false => simp [hc] at h; exact .inl ⟨rfl, h.symm⟩
  | true =>
    cases hr : s.flags.rawValid with
    | false => simp [hc, hr] at h; exact .inr (.inl ⟨rfl, rfl, h.symm⟩)
    | true => simp [hc, hr] at h; exact .inr (.inr ⟨rfl, rfl, h⟩)

/-- The operations of the block a command word can perform: a property all of them keep is kept by every
command word. The engine operations are asked for only where the gate is open. -/
theorem commandWrite_keeps {P : State → Prop}
    (hSeq : ∀ s t, P s → s.flags.busy = true → sequencerStep s = .next t → P t)
    (hOvr : ∀ s, P s → s.flags.busy = true → P s.setCmdovr)
    (hViol : ∀ s, P s → P s.setLockviol)
    (hTry : ∀ s a, P s → agentOk a = true → s.lock.held = false → P { s with lock := ⟨true, a⟩ })
    (hRel : ∀ s a, P s → s.lock.held = true → s.lock.owner = a → P { s with lock := LockCell.zero })
    (hSoft : ∀ s, P s → P s.softReset)
    (hRaise : ∀ s e, P s → s.flags.busy = false → s.flags.failed = false → e.raisedByBlock = true →
      e.fatal = false → P (s.raiseError e))
    (hClear : ∀ s, P s → s.flags.busy = false → s.flags.failed = false → P s.clearError)
    (hCal : ∀ s, P s → s.flags.busy = false → s.flags.failed = false → s.flags.calValid = false →
      P (s.accept .calParse))
    (hRaw : ∀ s, P s → s.flags.busy = false → s.flags.failed = false → s.flags.calValid = true →
      P s.startRawld)
    (hComp : ∀ s, P s → s.flags.busy = false → s.flags.failed = false → s.flags.calValid = true →
      s.flags.rawValid = true → P s.startComp)
    {w : Word} {s t : State} (hs : P s) (h : commandWrite w s = .next t) : P t := by
  have gate : ∀ k : Host.Outcome State Fault Refusal,
      (s.flags.busy = false → s.flags.failed = false → k = .next t → P t) →
      engineGate s k = .next t → P t := by
    intro k hk hg
    rcases engineGate_cases s k with ⟨hb, e⟩ | ⟨hb, hf, e⟩ | ⟨hb, hf, e⟩ <;> rw [e] at hg
    · cases hg; exact hOvr s hs hb
    · cases hg; exact hs
    · exact hk hb hf hg
  have viol : malformedLock s = .next t → P t := by
    intro hm; cases hm; exact hViol s hs
  unfold commandWrite at h
  split at h
  · next i hi =>
    cases i with
    | nop => cases h; exact hs
    | calld =>
      refine gate _ (fun hb hf hk => ?_) h
      rcases acceptCalld_next hk with ⟨hc, rfl⟩ | ⟨hc, hl⟩
      · exact hRaise s _ hs hb hf rfl rfl
      · exact launch_keeps hSeq (hCal s hs hb hf hc) hl
    | rawld =>
      refine gate _ (fun hb hf hk => ?_) h
      rcases acceptRawld_next hk with ⟨hc, rfl⟩ | ⟨hc, hl⟩
      · exact hRaise s _ hs hb hf rfl rfl
      · exact launch_keeps hSeq (hRaw s hs hb hf hc) hl
    | comp =>
      refine gate _ (fun hb hf hk => ?_) h
      rcases acceptComp_next hk with ⟨hc, rfl⟩ | ⟨hc, hr, rfl⟩ | ⟨hc, hr, hl⟩
      · exact hRaise s _ hs hb hf rfl rfl
      · exact hRaise s _ hs hb hf rfl rfl
      · exact launch_keeps hSeq (hComp s hs hb hf hc hr) hl
    | clrerr =>
      refine gate _ (fun hb hf hk => ?_) h
      cases hk
      exact hClear s hs hb hf
    | sreset => cases h; exact hSoft s hs
    | lockTry a =>
      simp only [exec, execLockTry] at h
      split at h
      · next ha =>
        cases h
        cases hh : s.lock.held with
        | true => rw [State.tryLock_held a hh]; exact hs
        | false => rw [State.tryLock_free a hh]; exact hTry s a hs ha hh
      · exact viol h
    | lockRel a =>
      simp only [exec, execLockRel] at h
      split at h
      · cases h
        by_cases hh : s.lock.held = true ∧ s.lock.owner = a
        · rw [State.releaseLock_owner hh.1 hh.2]; exact hRel s a hs hh.1 hh.2
        · rw [State.releaseLock_other hh]; exact hViol s hs
      · exact viol h
  · exact viol h
  · refine gate _ (fun hb hf hk => ?_) h
    cases hk
    exact hRaise s _ hs hb hf rfl rfl
  · refine gate _ (fun hb hf hk => ?_) h
    cases hk
    exact hRaise s _ hs hb hf rfl rfl

/-! ### The window, the hosts, the step -/

/-- Everything a buffer write can do. -/
theorem bufferWrite_cases (s : State) (off n : Nat) (v : Word) :
    (isBufferByte off = true ∧ s.flags.busy = true ∧ bufferWrite s off n v = s.setCmdovr) ∨
    (isBufferByte off = true ∧ s.flags.busy = false ∧
      bufferWrite s off n v = { s with mem := storeBytes s.mem off v n }) ∨
    (isBufferByte off = false ∧ bufferWrite s off n v = s) := by
  unfold bufferWrite
  cases hb : isBufferByte off <;> cases hs : s.flags.busy <;> simp

/-- Everything a host access can do: record a response and leave the block, write a command word, or
write the buffers. -/
theorem hostAccess_cases (a : Access) (s : State) :
    (∃ r, hostAccess a s = .next (s.withResp r)) ∨
    (∃ v, a = .write 0 4 v ∧ hostAccess a s = commandWrite v (s.withResp .ack)) ∨
    (∃ off n v, a = .write off n v ∧ legalAccess off n = true ∧
      hostAccess a s = .next (bufferWrite (s.withResp .ack) off n v)) := by
  cases a with
  | read off n => exact .inl ⟨_, rfl⟩
  | write off n v =>
    simp only [hostAccess, memWrite]
    cases hl : legalAccess off n with
    | false => exact .inl ⟨_, rfl⟩
    | true =>
      by_cases h0 : off = 0
      · subst h0
        have hn : n = 4 := by
          simp [legalAccess, calbufBase, bufferRegionEnd] at hl
          exact hl.1
        subst hn
        exact .inr (.inl ⟨v, rfl, rfl⟩)
      · by_cases hr : calbufBase ≤ off ∧ off < bufferRegionEnd
        · refine .inr (.inr ⟨off, n, v, rfl, hl, ?_⟩)
          simp [h0, hr]
        · refine .inl ⟨.ack, ?_⟩
          simp [h0, hr]

/-- Everything an access at a host-bus address can do: be a window access, get a bus error, or be none of
the block's. -/
theorem addressAccess_cases (a : Access) (s : State) :
    (∃ b, windowAccess s.cfg a = some b ∧ addressAccess a s = hostAccess b s) ∨
    (windowAccess s.cfg a = none ∧ addressAccess a s = .next (s.withResp .busError)) ∨
    (windowAccess s.cfg a = none ∧ addressAccess a s = .next s) := by
  unfold addressAccess
  cases h : windowAccess s.cfg a with
  | some b => exact .inl ⟨b, rfl, rfl⟩
  | none =>
    by_cases hr : a.start < s.cfg.baseAddress ∧ s.cfg.baseAddress < a.start + a.size
    · exact .inr (.inl ⟨rfl, by simp [hr]⟩)
    · exact .inr (.inr ⟨rfl, by simp [hr]⟩)

/-- What an event keeps: a property that does not look at the fields outside the block and that command
words, buffer writes, sequencer steps and the hardware reset keep, is kept by every event. -/
theorem perform_keeps {P : State → Prop}
    (hEnv : ∀ s e, P s → P { s with env := e })
    (hCmd : ∀ w s t, P s → commandWrite w s = .next t → P t)
    (hBuf : ∀ s off n v, P s → P (bufferWrite s off n v))
    (hSeq : ∀ s t, P s → s.flags.busy = true → sequencerStep s = .next t → P t)
    (hHard : ∀ s, P s → P s.hardReset)
    {e : Event} {s t : State} (hs : P s) (h : perform e s = .next t) : P t := by
  have acc : ∀ (a : Access) (u v : State), P u → hostAccess a u = .next v → P v := by
    intro a u v hu hv
    rcases hostAccess_cases a u with ⟨r, e⟩ | ⟨x, -, e⟩ | ⟨off, n, x, -, -, e⟩ <;> rw [e] at hv
    · cases hv; exact hEnv u _ hu
    · exact hCmd x _ v (hEnv u _ hu) hv
    · cases hv; exact hBuf _ off n x (hEnv u _ hu)
  have line : ∀ (k : Nat) (th : Thread) (l : Line) (ls : List Line) (u : State), P u →
      performLine k th l ls u = .next t → P t := by
    intro k th l ls u hu hl
    unfold performLine at hl
    split at hl
    · cases hl; exact hEnv u _ hu
    · split at hl
      · cases hl; exact hu
      · split at hl
        · next v hv => cases hl; exact hEnv v _ (acc _ u v hu hv)
        · cases hl
        · cases hl
  cases e with
  | sequencer =>
    cases hb : s.flags.busy with
    | false => rw [perform, sequencerTurn_idle hb] at h; cases h; exact hs
    | true => rw [perform, sequencerTurn_busy hb] at h; exact hSeq s t hs hb h
  | access a => exact acc a _ t hs h
  | address a =>
    simp only [perform] at h
    rcases addressAccess_cases a s with ⟨b, -, e⟩ | ⟨-, e⟩ | ⟨-, e⟩ <;> rw [e] at h
    · exact acc b _ t hs h
    · cases h; exact hEnv s _ hs
    · cases h; exact hs
  | thread k =>
    simp only [perform, threadTurn] at h
    split at h
    · cases h; exact hs
    · split at h
      · cases h; exact hs
      · exact line _ _ _ _ _ hs h
  | bus a op => cases h; exact hEnv _ _ hs
  | hardReset => cases h; exact hHard _ hs

/-- Everything a step can do: with no event, a turn of the sequencer; otherwise the event, on the state
with the order of the inputs moved on and nothing else changed. -/
theorem step_cases (s : State) :
    (s.nextEvent = none ∧ step s = sequencerTurn s) ∨
    ∃ (e : Event) (es : List Event) (o : Option Nat), s.nextEvent = some e ∧
      step s = perform e ((s.withInputs es).withOrder o) := by
  unfold step State.nextEvent
  cases hi : s.env.inputs with
  | cons e rest => exact .inr ⟨e, rest, s.env.order, rfl, rfl⟩
  | nil =>
    cases ho : s.env.order with
    | none => exact .inl ⟨rfl, rfl⟩
    | some n =>
      refine .inr ⟨Config.schedule n, [], some (n + 1), rfl, ?_⟩
      have : s.withInputs [] = s := by rw [← hi]; rfl
      simp only [this]

/-- What a step keeps: as `perform_keeps`. -/
theorem step_keeps {P : State → Prop}
    (hEnv : ∀ s e, P s → P { s with env := e })
    (hCmd : ∀ w s t, P s → commandWrite w s = .next t → P t)
    (hBuf : ∀ s off n v, P s → P (bufferWrite s off n v))
    (hSeq : ∀ s t, P s → s.flags.busy = true → sequencerStep s = .next t → P t)
    (hHard : ∀ s, P s → P s.hardReset)
    {s t : State} (hs : P s) (h : step s = .next t) : P t := by
  rcases step_cases s with ⟨-, e⟩ | ⟨v, es, o, -, e⟩ <;> rw [e] at h
  · exact perform_keeps (e := .sequencer) hEnv hCmd hBuf hSeq hHard hs h
  · exact perform_keeps hEnv hCmd hBuf hSeq hHard (hEnv s _ hs) h

/-- A step with its event chosen performs it on the state with no input placed. -/
theorem step_choosing (s : State) (e : Event) :
    step (s.choosing e) = perform e (s.withInputs []) := rfl

end Sys2Proof.Machine
end

