-- ==== Sys2Proof/Laws/Pipeline.lean ====
section
/-! SUPPORT. What one stage of the datapath can do, said once: where it goes, what becomes of the
divisor and of `ZDEN`; and the composition of stages. -/

namespace Sys2Proof.Machine

theorem Stage.isDatapath_iff {st : Stage} :
    st.isDatapath = true ↔ st.command = some .comp ∧ st ≠ .compCommit := by
  simp [Stage.isDatapath]

/-- A datapath stage goes to a stage of `COMP` (30_encoding.md R101). -/
theorem pipeStep_command (c : CompIn) {p : Pipe} (h : p.stage.isDatapath = true) :
    (pipeStep c p).stage.command = some .comp := by
  unfold pipeStep
  cases hs : p.stage <;> simp [hs, Stage.isDatapath, Stage.command] at h <;> try rfl
  simp only [pipePS7]
  split <;> rfl

/-- Outside the datapath a datapath step does nothing. -/
theorem pipeStep_other (c : CompIn) {p : Pipe} (h : p.stage.isDatapath = false) : pipeStep c p = p := by
  unfold pipeStep
  cases hs : p.stage <;> simp [hs, Stage.isDatapath, Stage.command] at h <;> rfl

/-- `P_S8` and `P_S9` are entered with a divisor that is not 0 (42_compensation.md R161). -/
theorem pipeStep_divisor (c : CompIn) {p : Pipe}
    (hx : p.stage = .pS8 ∨ p.stage = .pS9 → p.tmp.x ≠ 0)
    (ht : (pipeStep c p).stage = .pS8 ∨ (pipeStep c p).stage = .pS9) : (pipeStep c p).tmp.x ≠ 0 := by
  cases hs : p.stage <;> simp only [pipeStep, hs] at ht ⊢ <;>
    first
    | (exfalso; revert ht; simp [pipeTS1, pipeTS2, pipeTS3, pipeTS4, pipePS1, pipePS2, pipePS3, pipePS4,
        pipePS5, pipePS6, pipePS9, pipePS10, pipePS11, pipePS12, pipeFcvt]; done)
    | skip
  · unfold pipePS7 at ht ⊢
    split
    · next h0 => simp [h0] at ht
    · next h0 => exact h0
  · exact hx (.inl hs)

/-- `ZDEN` is set by the guard only, and what follows it keeps pressure 0 (42_compensation.md R161). -/
theorem pipeStep_zden (c : CompIn) {p : Pipe}
    (hz : p.zden = true → p.stage = .fcvt ∧ p.tmp.p = 0) (ht : (pipeStep c p).zden = true) :
    ((pipeStep c p).stage = .fcvt ∨ (pipeStep c p).stage = .compCommit) ∧ (pipeStep c p).tmp.p = 0 := by
  by_cases hp : p.zden = true
  · obtain ⟨hs, h0⟩ := hz hp
    simp only [pipeStep, hs, pipeFcvt]
    exact ⟨.inr trivial, h0⟩
  · cases hs : p.stage <;> simp only [pipeStep, hs] at ht ⊢ <;>
      first
      | exact absurd ht hp
      | skip
    unfold pipePS7 at ht ⊢
    split
    · exact ⟨.inl rfl, rfl⟩
    · next h0 => rw [if_neg h0] at ht; exact absurd ht hp

theorem pipeRun_succ (c : CompIn) (n : Nat) (p : Pipe) :
    pipeRun c (n + 1) p = pipeStep c (pipeRun c n p) := by
  induction n generalizing p with
  | zero => rfl
  | succ n ih => exact ih (pipeStep c p)

/-- Splitting a run of the datapath. -/
theorem pipeRun_add (c : CompIn) (m n : Nat) (p : Pipe) :
    pipeRun c (m + n) p = pipeRun c n (pipeRun c m p) := by
  induction m generalizing p with
  | zero => simp [pipeRun]
  | succ m ih => rw [Nat.succ_add]; exact ih (pipeStep c p)

@[simp] theorem withPipe_compIn (s : State) (p : Pipe) : (s.withPipe p).compIn = s.compIn := rfl

@[simp] theorem withPipe_pipe (s : State) (p : Pipe) : (s.withPipe p).pipe = p := rfl

theorem stageDatapath_pipe (s : State) : (stageDatapath s).pipe = pipeStep s.compIn s.pipe := rfl

/-! ### Right-hand sides on operands that carry an overflow

Each right-hand side of R150 to R166 is the one on the plain values, with the operands' overflows kept: so
the stages, which store plain values, and `compensate`, which does not, can be compared. -/

@[simp] theorem Flagged.pure_val (v : W64) : (Flagged.pure v).val = v := rfl

@[simp] theorem Flagged.pure_ovf (v : W64) : (Flagged.pure v).ovf = false := rfl

@[simp] theorem Flagged.after_val (r : Flagged) (o : Bool) : (r.after o).val = r.val := rfl

@[simp] theorem Flagged.after_ovf (r : Flagged) (o : Bool) : (r.after o).ovf = (o || r.ovf) := rfl

@[simp] theorem sra64_ovf (a : W64) (k : Nat) : (sra64 a k).ovf = false := rfl

theorem exprV1_after (a : Flagged) (c : W64) :
    exprV1 a (.pure c) = (exprV1 (.pure a.val) (.pure c)).after a.ovf := by
  simp [exprV1, Flagged.mul, Flagged.sra, Flagged.after, Flagged.pure]

theorem exprV2_after (b : Flagged) (c : W64) :
    exprV2 b (.pure c) = (exprV2 (.pure b.val) (.pure c)).after b.ovf := by
  simp [exprV2, Flagged.mul, Flagged.sra, Flagged.after, Flagged.pure, Bool.or_assoc]

theorem exprFine_after (x y : Flagged) :
    exprFine x y = (exprFine (.pure x.val) (.pure y.val)).after (x.ovf || y.ovf) := by
  simp [exprFine, Flagged.add, Flagged.after, Flagged.pure]

theorem exprTnum_after (x : Flagged) (m r : W64) :
    exprTnum x (.pure m) (.pure r) = (exprTnum (.pure x.val) (.pure m) (.pure r)).after x.ovf := by
  simp [exprTnum, Flagged.add, Flagged.mul, Flagged.after, Flagged.pure, Bool.or_assoc]

theorem exprTcenti_after (x : Flagged) : exprTcenti x = (exprTcenti (.pure x.val)).after x.ovf := by
  simp [exprTcenti, Flagged.sra, Flagged.after, Flagged.pure]

theorem exprX1_after (x : Flagged) : exprX1 x = (exprX1 (.pure x.val)).after x.ovf := by
  simp [exprX1, Flagged.sub, Flagged.after, Flagged.pure]

theorem exprY2_after (x : Flagged) (c : W64) :
    exprY2 x (.pure c) = (exprY2 (.pure x.val) (.pure c)).after x.ovf := by
  simp [exprY2, Flagged.mul, Flagged.after, Flagged.pure, Bool.or_assoc]

theorem exprY3_after (y x : Flagged) (c : W64) :
    exprY3 y x (.pure c) = (exprY3 (.pure y.val) (.pure x.val) (.pure c)).after (y.ovf || x.ovf) := by
  simp [exprY3, Flagged.add, Flagged.mul, Flagged.shl, Flagged.after, Flagged.pure, Bool.or_assoc]

theorem exprY4_after (y : Flagged) (c : W64) :
    exprY4 y (.pure c) = (exprY4 (.pure y.val) (.pure c)).after y.ovf := by
  simp [exprY4, Flagged.add, Flagged.shl, Flagged.after, Flagged.pure, Bool.or_assoc]

theorem exprX5_after (x : Flagged) (c d : W64) :
    exprX5 x (.pure c) (.pure d) = (exprX5 (.pure x.val) (.pure c) (.pure d)).after x.ovf := by
  simp only [exprX5, Flagged.add, Flagged.mul, Flagged.sra, Flagged.shl, Flagged.after, Flagged.pure,
    sra64_ovf, Bool.or_false, Bool.false_or, Bool.or_self]
  cases x.ovf <;> simp

theorem exprX6_after (x : Flagged) (c : W64) :
    exprX6 x (.pure c) = (exprX6 (.pure x.val) (.pure c)).after x.ovf := by
  simp [exprX6, Flagged.add, Flagged.mul, Flagged.sra, Flagged.after, Flagged.pure, Bool.or_assoc]

theorem exprP9_after (p y x : Flagged) :
    exprP9 p y x =
      (exprP9 (.pure p.val) (.pure y.val) (.pure x.val)).after (p.ovf || y.ovf || x.ovf) := by
  simp only [exprP9, Flagged.sub, Flagged.mul, Flagged.shl, Flagged.sdiv, Flagged.after, Flagged.pure,
    Bool.or_false, Bool.false_or]
  cases p.ovf <;> cases y.ovf <;> cases x.ovf <;> simp

theorem exprX10_after (c : W64) (p : Flagged) :
    exprX10 (.pure c) p = (exprX10 (.pure c) (.pure p.val)).after p.ovf := by
  simp only [exprX10, Flagged.mul, Flagged.sra, Flagged.after, Flagged.pure, sra64_ovf, Bool.or_false,
    Bool.false_or]
  cases p.ovf <;> simp

theorem exprY11_after (c : W64) (p : Flagged) :
    exprY11 (.pure c) p = (exprY11 (.pure c) (.pure p.val)).after p.ovf := by
  simp [exprY11, Flagged.mul, Flagged.sra, Flagged.after, Flagged.pure]

theorem exprP12_after (p x y : Flagged) (c : W64) :
    exprP12 p x y (.pure c) =
      (exprP12 (.pure p.val) (.pure x.val) (.pure y.val) (.pure c)).after
        (p.ovf || x.ovf || y.ovf) := by
  simp only [exprP12, Flagged.add, Flagged.sra, Flagged.shl, Flagged.after, Flagged.pure, sra64_ovf,
    Bool.or_false, Bool.false_or]
  cases p.ovf <;> cases x.ovf <;> cases y.ovf <;> simp

/-- The one setting of `FLT` is `fdiv32`. -/
@[simp] theorem floatQuotient_eq (f : FloatFormat) (n d : W64) : floatQuotient f n d = fdiv32 n d := by
  cases f
  rfl

/-- The default `AGENT_IDS` are exactly the agents a lock command may carry. -/
theorem default_agentIds (a : Byte) : Config.default.agentIds.has a = agentOk a := by
  revert a
  decide

end Sys2Proof.Machine
end

