-- ==== Sys2Proof/Laws/PerInstr.lean ====
section
/-! SUPPORT. Statements made once per command, as the host's case split needs them. The family `TableRow`:
the encoded word of a command lies in the command's row of 30_encoding.md R93. -/

namespace Sys2Proof.Laws.TableRow

/-- The word of a command matches its row of the opcode table under the row's mask. -/
def Statement (i : Instr) : Prop := encode i &&& tableMask i = tableMatch i

theorem nop : Statement .nop := by
  unfold Statement
  decide

theorem calld : Statement .calld := by
  unfold Statement
  decide

theorem rawld : Statement .rawld := by
  unfold Statement
  decide

theorem comp : Statement .comp := by
  unfold Statement
  decide

theorem clrerr : Statement .clrerr := by
  unfold Statement
  decide

theorem sreset : Statement .sreset := by
  unfold Statement
  decide

theorem lockTry (a : Byte) : Statement (.lockTry a) := by
  revert a
  unfold Statement
  decide

theorem lockRel (a : Byte) : Statement (.lockRel a) := by
  revert a
  unfold Statement
  decide

end Sys2Proof.Laws.TableRow
end

