-- ==== Sys2Proof/Tests/Slice0.lean ====
section
/-! SUPPORT. The model's own tests: the well-formedness smoke, words written out from the encoding, the
vectors of 95_test_vectors.md, and a witness for the hypotheses of each statement. Expected values are
the spec's (each test names its vector); none is the model's own answer. -/

namespace Sys2Proof.Tests

open Sys2Proof Sys2Proof.Machine

/-! ### Helpers -/

/-- The next state of an outcome, or the reset state where there is none. -/
def after (o : Host.Outcome State Fault Refusal) : State :=
  match o with
  | .next t => t
  | .fault _ => State.reset
  | .refused _ => State.reset

/-- The sample Calibration Set of 95_test_vectors.md V15. -/
def sampleCal : CalSet where
  t1 := 0x6B70
  t2 := 0x6743
  t3 := 0xFC18
  p1 := 0x8E7D
  p2 := 0xD643
  p3 := 0x0BD0
  p4 := 0x0B27
  p5 := 0x008C
  p6 := 0xFFF9
  p7 := 0x3C8C
  p8 := 0xC6F8
  p9 := 0x1770

/-- The sample raw pair of V20. -/
def sampleRaw : Raw := ⟨0x7EED0, 0x655AC⟩

/-- A buffer memory that holds the listed bytes from `off` on. -/
def memOf (off : Nat) : List Byte → List Host.Cell
  | [] => []
  | b :: bs => Memory.write (memOf (off + 1) bs) off b

/-- The calibration block of V15 in `CALBUF`. -/
def sampleBlock : List Host.Cell :=
  memOf 0x10 [0x70, 0x6B, 0x43, 0x67, 0x18, 0xFC, 0x7D, 0x8E, 0x43, 0xD6, 0xD0, 0x0B, 0x27, 0x0B, 0x8C,
    0x00, 0xF9, 0xFF, 0x8C, 0x3C, 0xF8, 0xC6, 0x70, 0x17]

/-- The burst of V20 in `RAWBUF`. -/
def sampleBurst : List Host.Cell := memOf 0x28 [0x65, 0x5A, 0xC0, 0x7E, 0xED, 0x00]

/-- From reset, the block of V15 written. -/
def loaded : State := { State.reset with mem := sampleBlock }

/-- The state after V15: the set loaded, `STATUS = 0x00000012`. -/
def ready : State :=
  { State.reset with
    cal := sampleCal
    mem := sampleBurst
    flags := { Flags.zero with calValid := true, done := true } }

/-- The state after V20: a raw pair loaded, `STATUS = 0x00000032`. -/
def measured : State :=
  { ready with raw := sampleRaw, flags := { ready.flags with rawValid := true } }

/-- The state after V17: `FAILED`, `STATUS = 0x0000000C`, `CAUSE = 5`. -/
def failedState : State :=
  { State.reset with flags := { Flags.zero with err := true, failed := true }, cause := 5 }

/-- The inputs of V30 under the parameters `cfg`. -/
def sampleIn (cfg : Config) : CompIn := ⟨cfg, sampleCal, sampleRaw⟩

/-! ### Well-formedness and decoding -/

theorem test_wf_refuses_agent_zero :
    Instr.wf (.lockTry 0) = false ∧ Instr.wf (.lockRel 0) = false ∧ Instr.wf (.lockTry 255) = true := by
  decide

theorem test_decode_nop : decode 0b00000000000000000000000000000000 = .ok .nop := by decide
theorem test_decode_calld : decode 0b00000000000000000000000000000001 = .ok .calld := by decide
theorem test_decode_rawld : decode 0b00000000000000000000000000000010 = .ok .rawld := by decide
theorem test_decode_comp : decode 0b00000000000000000000000000000011 = .ok .comp := by decide
theorem test_decode_clrerr : decode 0b00000000000000000000000000000100 = .ok .clrerr := by decide
theorem test_decode_sreset : decode 0b00000000000000000000000000000101 = .ok .sreset := by decide
theorem test_decode_lock_try : decode 0b00000000000000001111111100010000 = .ok (.lockTry 255) := by
  decide
theorem test_decode_lock_rel : decode 0b00000000000000001000000000010001 = .ok (.lockRel 128) := by
  decide

/-- V11. -/
theorem test_decode_illegal :
    [0x00000006, 0x0000000F, 0x00000012, 0x000000FF, 0x00000100, 0x80000001, 0x00010003].all
      (fun w : Word => decide (decode w = .error .illegal)) = true := by decide

/-- V12. -/
theorem test_decode_malformed_lock :
    [0x00000010, 0x00000011, 0x00010110, 0xFFFFFF10].all
      (fun w : Word => decide (decode w = .error .malformedLock)) = true := by decide

theorem test_decode_table_word :
    decodeTableWord 32 0x00000003 = some .comp ∧ decodeTableWord 16 0x0110 = some (.lockTry 1) ∧
      decodeTableWord 32 0x00000010 = none := by decide

/-! ### Arithmetic, V26 to V29 -/

theorem test_add_sub :
    add64 0x7FFFFFFFFFFFFFFF 1 = ⟨0x8000000000000000, true⟩ ∧
    add64 0x7FFFFFFFFFFFFFFF 0x8000000000000000 = ⟨0xFFFFFFFFFFFFFFFF, false⟩ ∧
    sub64 0 0x8000000000000000 = ⟨0x8000000000000000, true⟩ := by decide

theorem test_mul :
    mul64 3037000499 3037000499 = ⟨9223372030926249001, false⟩ ∧
    mul64 3037000500 3037000500 = ⟨0x8000000008ABC290, true⟩ ∧
    mul64 0x100000000 0xFFFFFFFF80000000 = ⟨0x8000000000000000, false⟩ := by decide

theorem test_shifts :
    shl64 (-3) 62 = ⟨0x4000000000000000, true⟩ ∧ shl64 (-32768) 35 = ⟨0xFFFC000000000000, false⟩ ∧
    sra64 (-5) 1 = ⟨-3, false⟩ ∧ sra64 0x8000000000000000 63 = ⟨-1, false⟩ := by decide

theorem test_sdiv :
    sdiv64 (-7) 2 = ⟨-3, false⟩ ∧ sdiv64 7 (-2) = ⟨-3, false⟩ ∧ sdiv64 (-7) (-2) = ⟨3, false⟩ ∧
    sdiv64 0x8000000000000000 (-1) = ⟨0x8000000000000000, true⟩ := by decide

theorem test_fdiv32 :
    fdiv32 0 256 = 0 ∧ fdiv32 (-1) 256 = 0xBB800000 ∧ fdiv32 3 256 = 0x3C400000 ∧
    fdiv32 25600 25600 = 0x3F800000 ∧ fdiv32 128 25600 = 0x3BA3D70A ∧
    fdiv32 642238 25600 = 0x41C8B30A ∧ fdiv32 25767233 256 = 0x47C496A0 := by decide

theorem test_fdiv32_ties_and_extremes :
    fdiv32 1 25600 = 0x3823D70A ∧ fdiv32 4294967552 256 = 0x4B800000 ∧
    fdiv32 4294968064 256 = 0x4B800002 ∧ fdiv32 0x7FFFFFFFFFFFFFFF 256 = 0x5B000000 ∧
    fdiv32 0x8000000000000000 256 = 0xDB000000 ∧
    fdiv32 0x7FFFFFFFFFFFFFFF 25600 = 0x57A3D70A := by decide

/-! ### Compensation -/

/-- V30. -/
theorem test_compensate_sample :
    compensate (sampleIn Config.default) =
      ⟨⟨128422, 642238, 2508, 25767233, 0x41C8B30A, 0x47C496A0⟩, false, false⟩ := by decide

/-- V36, V37: the literal readings of conflicts C1 and C2. -/
theorem test_compensate_parameters :
    compensate (sampleIn { Config.default with calUnsigned := [0] }) =
      ⟨⟨128422, 642238, 2508, -30501841, 0x41C8B30A, 0xC7E8B5E8⟩, false, false⟩ ∧
    (compensate (sampleIn { Config.default with tMul := 1 })).res.tFlt = 0x40A0B000 := by decide

/-- V40, the zero-denominator guard. -/
theorem test_compensate_guard :
    compensate ⟨Config.default, ⟨1, 24576, 0, 1, 0x8000, 0, 0, 0, 0, 0, 0, 0⟩, ⟨0xBF810, 0x12345⟩⟩ =
      ⟨⟨1176576, 5883008, 22980, 0, 0x4365CE14, 0⟩, true, false⟩ := by decide

/-- V41, overflow. -/
theorem test_compensate_overflow :
    compensate ⟨Config.default, ⟨0xFFFF, 0x8000, 0x8000, 0xFFFF, 0, 0x7FFF, 0, 0, 0, 0, 0, 0⟩,
      ⟨0x00001, 0x12345⟩⟩ =
      ⟨⟨32, 288, 1, -24138696, 0x3C3851EC, 0xC7B829E4⟩, false, true⟩ := by decide

/-- V33, V34, V35: negative and extreme results. -/
theorem test_compensate_extremes :
    compensate ⟨Config.default, sampleCal, ⟨0x00001, 0x00001⟩⟩ =
      ⟨⟨-721301, -3606377, -14088, 33608159, 0xC30CDFC5, 0x48003478⟩, false, false⟩ ∧
    compensate ⟨Config.default, sampleCal, ⟨0xFFFFF, 0xFFFFF⟩⟩ =
      ⟨⟨960246, 4801358, 18755, -2442530, 0x433B8D94, 0xC6151488⟩, false, false⟩ := by decide

/-! ### Commands and stages, one step each -/

/-- V15, accept. -/
theorem test_calld_accept :
    memRead (after (exec .calld loaded)) 0x04 4 = some 0x00010001 := by decide

/-- V19. -/
theorem test_calld_locked :
    memRead (after (exec .calld ready)) 0x04 4 = some 0x00000014 ∧
      memRead (after (exec .calld ready)) 0x08 4 = some 9 := by decide

/-- V15, the parse. -/
theorem test_cal_parse : (stageCalParse (loaded.accept .calParse)).tmp.tcal = sampleCal := by decide

/-- V17 and V18: the all-`0xFF` block, and one byte off it. -/
theorem test_cal_check :
    calInvalid { State.reset with
      mem := memOf 0x10 (List.replicate 24 0xFF), tmp := { Temps.zero with tcal := CalSet.allFF } }
        = true ∧
    calInvalid { State.reset with
      mem := memOf 0x10 (List.replicate 23 0xFF ++ [0xFE])
      tmp := { Temps.zero with tcal := { CalSet.allFF with p9 := 0xFEFF } } } = false := by decide

/-- V20. -/
theorem test_raw_decode :
    (stageRawDecode (ready.startRawld)).tmp.tp = 0x655AC ∧
      (stageRawDecode (ready.startRawld)).tmp.tt = 0x7EED0 ∧
      memRead ready.startRawld 0x04 4 = some 0x00040011 := by decide

/-- V21 and V22. -/
theorem test_raw_sentinels :
    isSentinel (rawTriplet (memOf 0x28 [0x80, 0x00, 0x0F, 0x12, 0x34, 0x50]) 0) = true ∧
    isSentinel (rawTriplet (memOf 0x28 [0x80, 0x00, 0x10, 0x80, 0x00, 0x10]) 3) = false := by decide

/-- V23. -/
theorem test_rawld_not_ready :
    memRead (after (exec .rawld State.reset)) 0x04 4 = some 0x00000004 ∧
      memRead (after (exec .rawld State.reset)) 0x08 4 = some 7 := by decide

/-- V30, accept. -/
theorem test_comp_accept :
    memRead (after (exec .comp measured)) 0x04 4 = some 0x00100031 := by decide

/-- V43. -/
theorem test_comp_raw_missing :
    memRead (after (exec .comp ready)) 0x04 4 = some 0x00000014 ∧
      memRead (after (exec .comp ready)) 0x08 4 = some 10 := by decide

/-- 44_control.md R215(c), (d). -/
theorem test_clrerr :
    memRead (after (exec .clrerr { ready with
      flags := { Flags.zero with calValid := true, err := true }, cause := 6 })) 0x04 4
        = some 0x00000010 ∧
    memRead (after (exec .clrerr failedState)) 0x04 4 = some 0x0000000C := by decide

/-- V53, V60. -/
theorem test_sreset :
    memRead (after (exec .sreset { failedState with lock := ⟨true, 3⟩ })) 0x04 4 = some 0 ∧
      memRead (after (exec .sreset { failedState with lock := ⟨true, 3⟩ })) 0x0C 4
        = some 0x80000003 := by decide

/-- V50, rows 1 and 2. -/
theorem test_lock_try :
    memRead (after (exec (.lockTry 1) State.reset)) 0x0C 4 = some 0x80000001 ∧
      memRead (after (exec (.lockTry 2) { State.reset with lock := ⟨true, 1⟩ })) 0x0C 4
        = some 0x80000001 := by decide

/-- V50, rows 7 and 8. -/
theorem test_lock_rel :
    memRead (after (exec (.lockRel 1) { State.reset with lock := ⟨true, 2⟩ })) 0x04 4
        = some 0x00000400 ∧
      memRead (after (exec (.lockRel 2) { State.reset with lock := ⟨true, 2⟩ })) 0x0C 4 = some 0 := by
  decide

/-- V13: a command, a buffer write and `NOP` while `BUSY = 1`. -/
theorem test_busy_drops :
    memRead (after (commandWrite 0x00000001 (loaded.accept .calParse))) 0x04 4 = some 0x00010201 ∧
    memRead (after (hostAccess (.write 0x10 1 0xAA) (loaded.accept .calParse))) 0x10 1 = some 0x70 ∧
    after (commandWrite 0 (loaded.accept .calParse)) = loaded.accept .calParse := by decide

/-- V14: window accesses. -/
theorem test_window_accesses :
    memRead (after (hostAccess (.write 0x10 4 0x67436B70) State.reset)) 0x12 2 = some 0x6743 ∧
    legalAccess 0x11 2 = false ∧ legalAccess 0x12 4 = false ∧ legalAccess 0x04 1 = false ∧
    legalAccess 0x06 2 = false ∧ legalAccess 0x00 2 = false ∧ legalAccess 0x100 4 = false ∧
    memRead ready 0x2C 4 = some 0x000000ED := by decide

/-- V15: `CAL_W`. -/
theorem test_cal_words :
    memRead ready 0x68 4 = some 0xFFFFFC18 ∧ memRead ready 0x6C 4 = some 0x00008E7D := by decide

/-- 20_memory.md R60, R63: accesses at host-bus addresses, inside the window, past it, reaching into it
from below. -/
theorem test_addresses :
    let s : State := { State.reset with cfg := { Config.default with base := some 0x4000 } }
    (after (addressAccess (.write 0x4000 4 0x00000110) s)).lock = ⟨true, 1⟩ ∧
    after (addressAccess (.write 0x4100 4 0x00000110) s) = s ∧
    (after (addressAccess (.read 0x40FC 4) s)).env.resp = .value 4 0 ∧
    after (addressAccess (.read 0x3FFE 4) s) = s.withResp .busError := by decide

/-- A command word placed for the next step is run by it. -/
theorem test_step_runs_placed_word :
    (after (step (State.reset.withFetchWord 32 0x00000110))).lock = ⟨true, 1⟩ ∧
      (after (step (State.reset.withFetchWord 32 0x00000006))).cause = 8 := by decide

/-! ### Witnesses: each shows states and operands that meet the hypotheses of one statement together -/

/-- Whether an outcome is a next state. -/
def answers (o : Host.Outcome State Fault Refusal) : Bool :=
  match o with
  | .next _ => true
  | .fault _ => false
  | .refused _ => false

theorem eq_next_after {o : Host.Outcome State Fault Refusal} (h : answers o = true) :
    o = .next (after o) := by
  cases o with
  | next t => rfl
  | fault f => cases h
  | refused r => cases h

/-- The states of the run from `s`. -/
def runFrom (s : State) : Nat → State
  | 0 => s
  | n + 1 => after (step (runFrom s n))

/-- The state with the command word `w` written to `CMD` next. -/
def writes (s : State) (w : Word) : State := s.withInputs [.access (.write 0 4 w)]

/-- The state with one host thread that has the lines `ls` to perform and the next turn. -/
def withOneThread (s : State) (ls : List Line) : State :=
  { s with env := ⟨[.thread 0], none, [⟨1, ls, 0, 0, none⟩], .none, []⟩ }

/-- The state with the lock held by agent `a`. -/
def heldBy (s : State) (a : Byte) : State := { s with lock := ⟨true, a⟩ }

/-- The state at another stage. -/
def atStage (s : State) (st : Stage) : State := { s with stage := st }

/-- The block with `STAGE_ATOMIC = true`. -/
def atomic (s : State) : State := { s with cfg := { s.cfg with stageAtomic := true } }

/-- `COMP` accepted. -/
def comping : State := measured.startComp

/-- `COMP` accepted on the inputs of V40, where the guard fires after 11 stages; a read of `STATUS` is
the next step. -/
def guardRun : State :=
  State.withInputs
    (State.startComp
      { measured with cal := ⟨1, 24576, 0, 1, 0x8000, 0, 0, 0, 0, 0, 0, 0⟩, raw := ⟨0xBF810, 0x12345⟩ })
    [.access (.read 4 4)]

/-- Agent 1 owns the lock, uses the bus and frees it; then agent 2 takes it and uses the bus. -/
def busRun : State :=
  (heldBy State.reset 1).withInputs
    [.bus 1 ⟨.read, 0x77, 0xF7, [0, 0, 0, 0, 0, 0], .ok⟩, .access (.write 0 4 0x00000111),
      .access (.write 0 4 0x00000210), .bus 2 ⟨.write, 0x77, 0xF4, [0x27], .busFault⟩]

/-- The block on a platform that fixes `BASE`. -/
def based : State := { measured with cfg := { measured.cfg with base := some 0x4000 } }

theorem inv_measured : Inv measured := by
  constructor
  case causeCode => exact fun h => absurd h (by decide)
  all_goals decide

theorem inv_ready : Inv (writes ready 0x00000000) := by
  constructor
  case causeCode => exact fun h => absurd h (by decide)
  all_goals decide

theorem inv_failed : Inv failedState := by
  constructor
  case causeCode => exact fun _ => ⟨.invalidCalibration, rfl, rfl⟩
  all_goals decide

theorem inv_reset : Inv State.reset := by
  constructor
  case causeCode => exact fun h => absurd h (by decide)
  all_goals decide

theorem inv_guardRun : Inv guardRun := by
  constructor
  case causeCode => exact fun h => absurd h (by decide)
  all_goals decide

/-- DecodeEncodeRoundTrip: a command of each format; words that decode. -/
theorem witness_round_trips :
    Instr.wf .comp = true ∧ Instr.wf (.lockTry 1) = true ∧ Instr.wf (.lockRel 255) = true ∧
      decode 0x00000003 = .ok .comp ∧ decode 0x0000FF11 = .ok (.lockRel 255) := by decide

/-- IllegalAndMalformedWords: words at the edges of each clause. -/
theorem witness_illegal_words :
    decode 0x00000006 = .error .illegal ∧ decode 0x0000000F = .error .illegal ∧
    decode 0x00000012 = .error .illegal ∧ decode 0x00000105 = .error .illegal ∧
    decode 0x00000010 = .error .malformedLock ∧ decode 0x00010111 = .error .malformedLock ∧
    ready.flags.busy = false ∧ ready.flags.failed = false := by decide

/-- StepRunsDecodedCommand. -/
theorem witness_step_runs_command :
    (writes measured 0x00000003).env.inputs = .access (.write 0 4 0x00000003) :: [] ∧
    decode 0x00000003 = .ok .comp ∧ decodeTableWord 32 0x00000003 = some .comp := by decide

/-- StepRunsDecodedCommand, its clause on `BASE`, fixed and open. -/
theorem witness_step_runs_addressed_command :
    (based.withInputs [.address (.write 0x4000 4 3)]).env.inputs =
      .address (.write based.cfg.baseAddress 4 3) :: [] ∧
    (measured.withInputs [.address (.write Config.openBase 4 3)]).env.inputs =
      .address (.write measured.cfg.baseAddress 4 3) :: [] := ⟨rfl, rfl⟩

/-- StepRunsThreadLine, the command lines. -/
theorem witness_step_runs_thread :
    let s := withOneThread ready [.cmd .rawld, .wait]
    Instr.wf .rawld = true ∧ s.env.inputs = .thread 0 :: [] ∧
      s.env.threads[0]? = some ⟨1, [.cmd .rawld, .wait], 0, 0, none⟩ ∧
      exec .rawld ((s.withInputs []).withResp .ack) =
        .next (after (exec .rawld ((s.withInputs []).withResp .ack))) :=
  ⟨rfl, rfl, rfl, rfl⟩

/-- StepRunsThreadLine, the other lines: a thread at each, and a write, a good and a bad read, the words
of `LOCK_TRY 1` and of the malformed agent 0 that answer. -/
theorem witness_step_runs_thread_lines :
    [[Line.wr 0x10 1], [.wrh 0x2C 1], [.wrb 0x2D 1], [.rd 0x04], [.rd 0x102], [.lockAcq 1],
      [.lockTryN 1 3], [.bus ⟨.read, 0x77, 0xF7, [0], .ok⟩]].all
      (fun ls => decide ((withOneThread ready ls).env.threads[0]? = some ⟨1, ls, 0, 0, none⟩)) = true ∧
    [Access.write 0x10 4 1, .write 0x2C 2 1, .write 0x2D 1 1, .write 0 4 ((0#16 ++ 1#8) ++ 0x10#8),
      .write 0 4 ((0#16 ++ 0#8) ++ 0x10#8)].all
      (fun a => answers (hostAccess a (withOneThread ready []))) = true ∧
    memRead ready 0x04 4 = some 0x00000012 ∧ memRead ready 0x102 4 = none ∧
    busRun.env.inputs.head? = some (.bus 1 ⟨.read, 0x77, 0xF7, [0, 0, 0, 0, 0, 0], .ok⟩) := by decide

/-- SequencerStepsExactlyWhenBusy: a placed turn, no input, and a free order; busy and not. -/
theorem witness_sequencer_turn :
    (comping.withOrder (some 7)).env.inputs = [] ∧ (comping.withOrder (some 7)).env.order = some 7 ∧
    ready.env.order = none ∧ comping.env.order = none ∧
    (comping.withInputs [.sequencer]).env.inputs = .sequencer :: [] ∧
      (comping.withInputs [.sequencer]).flags.busy = true ∧ comping.env.inputs = [] ∧
      comping.flags.busy = true ∧ (ready.withInputs [.sequencer]).env.inputs = .sequencer :: [] ∧
      ready.env.inputs = [] ∧ ready.flags.busy = false := by decide

/-- StepNeverStops, StepKeepsInvariant: a step of the sequencer, a host step, an idle step. -/
theorem witness_steps_under_invariant :
    (Inv guardRun ∧ step guardRun = .next (after (step guardRun))) ∧
    (Inv (writes ready 0x00000000) ∧
      step (writes ready 0x00000000) = .next (after (step (writes ready 0x00000000)))) ∧
    (Inv State.reset ∧ step State.reset = .next (after (step State.reset))) :=
  ⟨⟨inv_guardRun, rfl⟩, ⟨inv_ready, rfl⟩, ⟨inv_reset, rfl⟩⟩

/-- HardwareResetSetsEveryItem: a reset in the middle of `COMP`. -/
theorem witness_hardware_reset :
    (comping.withInputs [.hardReset]).env.inputs = .hardReset :: [] ∧
      step (comping.withInputs [.hardReset]) = .next (after (step (comping.withInputs [.hardReset]))) :=
  ⟨rfl, rfl⟩

/-- CalldAccept, RawldAccept, CompAccept, ClrerrClearsDiagnostics and AcceptFollowsTestOrder: a state for
each clause. -/
theorem witness_accepts :
    [State.reset, ready, measured].all (fun s => !s.flags.busy && !s.flags.failed) = true ∧
    State.reset.flags.calValid = false ∧ ready.flags.calValid = true ∧
    ready.flags.rawValid = false ∧ measured.flags.calValid = true ∧
    measured.flags.rawValid = true ∧ measured.cfg.stageAtomic = false ∧
    State.reset.cfg.stageAtomic = false ∧ ready.cfg.stageAtomic = false ∧
    comping.flags.busy = true ∧ failedState.flags.busy = false ∧ failedState.flags.failed = true ∧
    [0x00000001, 0x00000002, 0x00000003, 0x00000004, 0x00000006].all droppedWhileBusy = true ∧
    decode 0x00000005 = .ok .sreset := by decide

/-- LockTryTakesFreeLock, LockRelFreesOwnLock: free, owned and another's, the edges 1 and 255. -/
theorem witness_lock_commands :
    (1 : Byte) ≠ 0 ∧ (255 : Byte) ≠ 0 ∧ State.reset.lock.held = false ∧
    ((heldBy ready 1).lock.held = true ∧ (heldBy ready 1).lock.owner = 1) ∧
    ¬((heldBy ready 1).lock.held = true ∧ (heldBy ready 1).lock.owner = 255) := by decide

/-- EngineCommandFrame, LockAndEngineAreIndependent: each command answers a next state. -/
theorem witness_frames :
    [Instr.nop, .calld, .rawld, .comp, .clrerr, .lockTry 1, .lockRel 1, .sreset].all
      (fun i => answers (exec i measured)) = true ∧ measured.cfg.stageAtomic = false := by decide

/-- AtomicCommandsEndWhereStagedOnesDo. -/
theorem witness_atomic :
    (atomic loaded).cfg.stageAtomic = true ∧ (atomic loaded).flags.busy = false ∧
    (atomic loaded).flags.failed = false ∧ (atomic loaded).flags.calValid = false ∧
    (atomic measured).cfg.stageAtomic = true ∧ (atomic measured).flags.busy = false ∧
    (atomic measured).flags.failed = false ∧ (atomic measured).flags.calValid = true ∧
    (atomic measured).flags.rawValid = true := by decide

/-- ErrorEntryIsPrecise: an illegal word, and a sentinel met in `RAW_CHECK`. -/
theorem witness_error_entry :
    let s := writes ready 0x00000006
    let u := atStage { ready.startRawld with tmp := { Temps.zero with tt := 0x80000 } } .rawCheck
    (step s = .next (after (step s)) ∧ s.flags.err = false ∧ (after (step s)).flags.err = true) ∧
    (step u = .next (after (step u)) ∧ u.flags.err = false ∧ (after (step u)).flags.err = true) :=
  ⟨⟨rfl, rfl, rfl⟩, ⟨rfl, rfl, rfl⟩⟩

/-- FailedLastsUntilReset. -/
theorem witness_failed :
    Inv failedState ∧ failedState.flags.failed = true ∧ droppedWhileBusy 0x00000001 = true ∧
      step failedState = .next (after (step failedState)) :=
  ⟨inv_failed, rfl, by decide, rfl⟩

/-- StickyFlagsStay: `CLRERR` on a block with both flags set. -/
theorem witness_sticky_flags :
    let s := writes (ready.setCmdovr.setLockviol) 0x00000004
    step s = .next (after (step s)) ∧
      (s.flags.cmdovr = true ∧ (after (step s)).flags.cmdovr = false) ∧
      (s.flags.lockviol = true ∧ (after (step s)).flags.lockviol = false) :=
  ⟨rfl, ⟨rfl, rfl⟩, ⟨rfl, rfl⟩⟩

/-- StickyFlagsStay, its clause on `OVF`: `COMP` accepted after a run that overflowed. -/
theorem witness_overflow_flag :
    let s := writes { measured with flags := { measured.flags with ovf := true } } 0x00000003
    step s = .next (after (step s)) ∧ s.flags.ovf = true ∧ (after (step s)).flags.ovf = false :=
  ⟨rfl, rfl, rfl⟩

/-- CalibrationSetIsImmutable. -/
theorem witness_calibration_immutable :
    let s := writes ready 0x00000000
    Inv s ∧ s.flags.calValid = true ∧ step s = .next (after (step s)) :=
  ⟨inv_ready, rfl, rfl⟩

/-- The stages of `CALLD`: a good block, V17's block, and `T1 = 0`, `P1 = 0`. -/
theorem witness_calld_stages :
    (loaded.accept .calParse).stage = .calParse ∧
    (let s := atStage { loaded with tmp := { Temps.zero with tcal := sampleCal } } .calCheck
     s.stage = .calCheck ∧
      ¬((∀ i, i < 24 → Memory.read s.mem (0x10 + i) = 0xFF) ∨ s.tmp.tcal.t1 = 0 ∨
        s.tmp.tcal.p1 = 0)) ∧
    (∀ i, i < 24 → Memory.read (memOf 0x10 (List.replicate 24 0xFF)) (0x10 + i) = 0xFF) ∧
    (atStage State.reset .calCheck).tmp.tcal.t1 = 0 ∧
    (atStage State.reset .calCheck).tmp.tcal.p1 = 0 ∧ (atStage loaded .calCommit).stage = .calCommit := by
  decide

/-- CalldLoadsValidBlock. -/
theorem witness_calld_whole :
    loaded.flags.busy = false ∧ loaded.flags.failed = false ∧ loaded.flags.calValid = false ∧
    loaded.cfg.stageAtomic = false ∧ (∃ i, i < 24 ∧ Memory.read loaded.mem (0x10 + i) ≠ 0xFF) ∧
    (Memory.read loaded.mem 0x10 ≠ 0 ∨ Memory.read loaded.mem 0x11 ≠ 0) ∧
    (Memory.read loaded.mem 0x16 ≠ 0 ∨ Memory.read loaded.mem 0x17 ≠ 0) :=
  ⟨rfl, rfl, rfl, rfl, ⟨0, by decide, by decide⟩, by decide, by decide⟩

/-- The stages of `RAWLD`: good counts at both ends of the range, each sentinel in each channel. -/
theorem witness_rawld_stages :
    let good : Temps := { Temps.zero with tt := 0x00001, tp := 0xFFFFF }
    ready.startRawld.stage = .rawDecode ∧
    ¬(good.tt = 0x00000 ∨ good.tt = 0x80000 ∨ good.tp = 0x00000 ∨ good.tp = 0x80000) ∧
    { good with tt := 0x80000 }.tt = 0x80000 ∧ { good with tp := 0x80000 }.tp = 0x80000 ∧
    { good with tt := 0 }.tt = 0 ∧ { good with tp := 0 }.tp = 0 ∧
    (atStage ready.startRawld .rawCheck).stage = .rawCheck ∧
    (atStage ready.startRawld .rawCommit).stage = .rawCommit := by decide

/-- RawldLoadsGoodBurst. -/
theorem witness_rawld_whole :
    ready.flags.busy = false ∧ ready.flags.failed = false ∧ ready.flags.calValid = true ∧
    ready.cfg.stageAtomic = false ∧ isSentinel (rawTriplet ready.mem 0) = false ∧
    isSentinel (rawTriplet ready.mem 3) = false := by decide

/-- The stages of `COMP`: every stage has a state (TemperatureStages, PressureDenominatorStages,
PressureAndFloatStages, CompCommitWritesResults). -/
theorem witness_comp_stages : ∀ st : Stage, (atStage comping st).stage = st := fun _ => rfl

/-- ZeroDenominatorGuard: `X` zero and not. -/
theorem witness_guard :
    let s := atStage comping .pS7
    s.stage = .pS7 ∧ s.tmp.x = 0 ∧ ({ s with tmp := { s.tmp with x := 1 } } : State).tmp.x ≠ 0 := by
  decide

/-- CompCommitsCompensate. -/
theorem witness_comp_whole :
    measured.flags.busy = false ∧ measured.flags.failed = false ∧ measured.flags.calValid = true ∧
    measured.flags.rawValid = true ∧ measured.cfg.stageAtomic = false := by decide

/-- Safety.OnTrace, the invariant behind InterleavedCompIsPure: a run that has just been accepted is on
its trace. -/
theorem witness_comp_trace : OnTrace guardRun ∧ step guardRun = .next (after (step guardRun)) :=
  ⟨fun _ => ⟨0, guardRun.tmp, rfl⟩, rfl⟩

/-- InterleavedCompIsPure: a run of `COMP` with a host read between its stages. -/
theorem witness_interleaved_comp :
    Run (runFrom guardRun) 13 ∧ Inv (runFrom guardRun 0) ∧ (runFrom guardRun 0).stage = .tS1 ∧
    (runFrom guardRun 0).flags.zden = false ∧ (runFrom guardRun 0).flags.ovf = false ∧
    (∀ i, i ≤ 13 → (runFrom guardRun i).stage.command = some .comp) ∧
    (runFrom guardRun 13).stage = .compCommit := by
  refine ⟨fun i hi => eq_next_after ?_, inv_guardRun, rfl, rfl, rfl, by decide +kernel, by decide +kernel⟩
  revert i
  decide +kernel

/-- CommandsEndInBoundedTurns: each of the three commands. -/
theorem witness_bounded_turns :
    (loaded.accept .calParse).flags.busy = true ∧ (loaded.accept .calParse).stage = .calParse ∧
    ready.startRawld.flags.busy = true ∧ ready.startRawld.stage = .rawDecode ∧
    comping.flags.busy = true ∧ comping.stage.command = some .comp := by decide

/-- The state of an endless run in which the sequencer has every turn. -/
def turnsFrom (s : State) : Nat → State
  | 0 => s
  | n + 1 => after (step ((turnsFrom s n).choosing .sequencer))

theorem turnsFrom_idle {s : State} (n : Nat) (h : (turnsFrom s n).flags.busy = false) :
    turnsFrom s (n + 1) = (turnsFrom s n).withInputs [] ∧
      answers (step ((turnsFrom s n).choosing .sequencer)) = true := by
  have e : step ((turnsFrom s n).choosing .sequencer) = .next ((turnsFrom s n).withInputs []) := by
    rw [step_choosing, perform, sequencerTurn_idle (by exact h)]
  exact ⟨by rw [turnsFrom, e, after], by rw [e, answers]⟩

/-- CommandsEndInBoundedTurns, its clause on endless runs: `CALLD` on V15's block. -/
theorem witness_endless_run :
    EndlessRun (fun _ => .sequencer) (turnsFrom (loaded.accept .calParse)) ∧
    SequencerFair (fun _ => .sequencer) (turnsFrom (loaded.accept .calParse)) ∧
    (turnsFrom (loaded.accept .calParse) 0).flags.busy = true := by
  have idle : ∀ n, (turnsFrom (loaded.accept .calParse) (n + 3)).flags.busy = false := by
    intro n
    induction n with
    | zero => decide
    | succ n ih => rw [(turnsFrom_idle (n + 3) ih).1]; exact ih
  have early : ∀ n, n < 3 →
      answers (step ((turnsFrom (loaded.accept .calParse) n).choosing .sequencer)) = true := by decide
  refine ⟨fun i => eq_next_after ?_, fun i _ => ⟨i, le_rfl, rfl⟩, rfl⟩
  by_cases h : i < 3
  · exact early i h
  · obtain ⟨n, rfl⟩ : ∃ n, i = n + 3 := ⟨i - 3, by omega⟩
    exact (turnsFrom_idle (n + 3) (idle n)).2

/-- Safety.FairRun says something: agent 1 holds the lock for ever and agent 2 tries for ever, which the
machine allows (43_lock.md R199, R202) and `FairRun` excludes under `LOCK_FAIR = true`, by the model's
choice (log entry 16). -/
theorem test_fair_run_excludes_starvation :
    let s : State := State.withResp
      { heldBy State.reset 1 with cfg := { Config.default with lockFair := true } } .ack
    EndlessRun (fun _ => .access (.write 0 4 0x00000210)) (fun _ => s) ∧
      ¬FairRun (fun _ => .access (.write 0 4 0x00000210)) (fun _ => s) := by
  refine ⟨fun _ => rfl, fun h => ?_⟩
  obtain ⟨j, -, hj⟩ := h rfl 2 (fun i => ⟨i, le_rfl, 0x00000210, rfl, by decide⟩) 0
  have : (1 : Byte) = 2 := congrArg LockCell.owner hj
  exact absurd this (by decide)

/-- ShiftFloorsAndDivisionTruncates: the edges. -/
theorem witness_arithmetic :
    (63 : Nat) ≤ 63 ∧ (2 : W64) ≠ 0 ∧ ¬((2 : W64).toInt = -2 ^ 63 ∧ (2 : W64).toInt = -1) ∧
    (0x8000000000000000 : W64).toInt = -2 ^ 63 ∧ (-1 : W64).toInt = -1 := by decide

/-- PrimitivesWrapAndFlagOverflow: results of each primitive, R142 to R144's examples, the shift count at
both ends of its range. -/
theorem witness_primitives :
    ((⟨0x8000000000000000, true⟩ : Flagged) = add64 0x7FFFFFFFFFFFFFFF 1 ∧
      (9223372036854775808 : Int) = (0x7FFFFFFFFFFFFFFF : W64).toInt + (1 : W64).toInt) ∧
    ((⟨0x7FFFFFFFFFFFFFFF, true⟩ : Flagged) = sub64 0x8000000000000000 1 ∧
      (-9223372036854775809 : Int) = (0x8000000000000000 : W64).toInt - (1 : W64).toInt) ∧
    ((⟨0x8000000000000000, true⟩ : Flagged) = mul64 0x100000000 0x80000000 ∧
      (9223372036854775808 : Int) = (0x100000000 : W64).toInt * (0x80000000 : W64).toInt) ∧
    ((63 : Nat) ≤ 63 ∧ (⟨0x8000000000000000, false⟩ : Flagged) = shl64 (-1) 63 ∧
      (-9223372036854775808 : Int) = (-1 : W64).toInt * 2 ^ 63) ∧
    ((0 : Nat) ≤ 63 ∧ (⟨5, false⟩ : Flagged) = shl64 5 0 ∧ (5 : Int) = (5 : W64).toInt * 2 ^ 0) := by
  decide

/-- FineTemperatureIsBounded, FloatQuotientIsZeroOrNormal, FloatQuotientIsNearestEven: both settings of
`CAL_UNSIGNED`, the least and the greatest divisor, a finite number. -/
theorem witness_compensation_bounds :
    (sampleIn Config.default).cfg.calUnsigned = [0, 3] ∧
    (sampleIn { Config.default with calUnsigned := [0] }).cfg.calUnsigned = [0] ∧
    0 < (1 : W64).toInt ∧ 0 < (0x7FFFFFFFFFFFFFFF : W64).toInt ∧ floatFinite 0x7F7FFFFF = true := by
  decide

/-- IllegalAccessesGetBusError, ReadsAndReadOnlyWritesHaveNoEffect: offsets where the clauses meet. -/
theorem witness_accesses :
    ((0x10 ≤ 0x2F ∧ 0x2F ≤ 0x2F) ∧ (1 = 1 ∨ 1 = 2 ∨ 1 = 4) ∧ 1 ∣ 0x2F) ∧
    ((0x10 ≤ 0x2C ∧ 0x2C ≤ 0x2F) ∧ 4 ∣ 0x2C) ∧
    (¬(0x10 ≤ 0xFC ∧ 0xFC ≤ 0x2F) ∧ 4 ∣ 0xFC ∧ 0xFC + 4 ≤ 256) ∧
    (¬(0x10 ≤ 0x30 ∧ 0x30 ≤ 0x2F) ∧ 4 ∣ 0x30) ∧ (¬(0x10 ≤ 0x0C ∧ 0x0C ≤ 0x2F) ∧ 4 ∣ 0x0C) ∧
    ¬(0x100 + 4 ≤ 256) ∧ (4 ≤ 0x04 ∧ ¬(0x10 ≤ 0x04 ∧ 0x04 < 0x2E)) ∧
    (4 ≤ 0x2E ∧ ¬(0x10 ≤ 0x2E ∧ 0x2E < 0x2E)) := by decide

/-- BufferWritesStoreOrDrop: the first and the last word, the last byte;
busy and not. -/
theorem witness_buffer_writes :
    Memory.wf loaded.mem = true ∧ legalAccess 0x10 4 = true ∧ legalAccess 0x2C 4 = true ∧
    legalAccess 0x2D 1 = true ∧ legalAccess 0x2C 2 = true ∧ loaded.flags.busy = false ∧
    Memory.wf (loaded.accept .calParse).mem = true ∧ (loaded.accept .calParse).flags.busy = true ∧
    answers (hostAccess (.write 0x2C 2 0x1234) loaded) = true := by decide

/-- WindowIsLittleEndian: the last word of the buffer region, the last word of the window. -/
theorem witness_window_reads :
    memRead ready 0x2C 4 = some 0x000000ED ∧ memRead ready 0xFC 4 = some 0 := by decide

/-- CoefficientWordsAreExtended: an index of each kind, and a block without a set. -/
theorem witness_coefficient_words :
    (3 : Fin 12) ∈ ready.cfg.calUnsigned ∧ (11 : Fin 12) ∉ ready.cfg.calUnsigned ∧
      Inv State.reset ∧ State.reset.flags.calValid = false :=
  ⟨by decide, by decide, inv_reset, rfl⟩

/-- OwnerKeepsLockUntilRelease: agent 1 owns the lock while agent 2 tries it. -/
theorem witness_owner_keeps_lock :
    Run (runFrom (writes (heldBy ready 1) 0x00000210)) 1 ∧
    OwnedBy 1 (runFrom (writes (heldBy ready 1) 0x00000210) 0) ∧
    ∀ i, i < 1 → ¬FreesLock 1 (runFrom (writes (heldBy ready 1) 0x00000210) i) := by
  refine ⟨fun i hi => eq_next_after ?_, rfl, fun i hi => ?_⟩
  · revert i
    decide
  · obtain rfl : i = 0 := by omega
    rintro (h | ⟨w, hw, hd⟩)
    · cases h
    · cases hw
      exact absurd hd (by decide)

/-- BusTransactionsNeverInterleave. -/
theorem witness_bus_transactions :
    Run (runFrom busRun) 4 ∧ (∀ m, m < 4 → BusDuty (runFrom busRun m)) ∧
    (runFrom busRun 0).nextBusAgent = some 1 ∧ (runFrom busRun 3).nextBusAgent = some 2 := by
  have owns : ∀ m, m < 4 → (runFrom busRun m).nextBusAgent = none ∨
      (runFrom busRun m).nextBusAgent = some (runFrom busRun m).lock.owner ∧
        (runFrom busRun m).lock.held = true := by decide
  refine ⟨fun i hi => eq_next_after ?_, fun m hm a ha => ?_, by decide, by decide⟩
  · revert i
    decide
  · rcases owns m hm with h | ⟨h, hh⟩
    · rw [h] at ha
      cases ha
    · rw [h] at ha
      cases ha
      show (runFrom busRun m).lock = _
      rw [← hh]

/-- AcquireEndsOnlyAsOwner, WaitReturnsWhenNotBusy: threads at each of their reads, granted and not. -/
theorem witness_threads :
    [[Line.lockAcqRead 1], [.lockTryNRead 1 0], [.lockTryNRead 1 2], [.wait]].all
      (fun ls => decide ((withOneThread ready ls).env.threads[0]? = some ⟨1, ls, 0, 0, none⟩)) = true ∧
    (withOneThread ready []).env.inputs = .thread 0 :: [] ∧
    (heldBy ready 1).lock = ⟨true, 1⟩ ∧ (heldBy ready 2).lock ≠ ⟨true, 1⟩ ∧
    ready.flags.busy = false ∧ comping.flags.busy = true := by decide

end Sys2Proof.Tests
end

/-! ### Steps of the machine seen from a running command

A step is at most one operation on the block. While `BUSY = 1` it leaves the running command alone, performs
one stage of it or ends it; each stage leaves fewer turns to take. -/

namespace Sys2Proof.Machine

/-! ### One operation a step -/

/-- The one operation on the block that an event comes to, if any: a command word, a write in the buffer
region, a stage of the sequencer or the hardware reset. -/
inductive BlockOp (s : State) : State → Prop where
  | none : BlockOp s s
  | command (w : Word) {t : State} (h : commandWrite w s = .next t) : BlockOp s t
  | buffer (off n : Nat) (v : Word) : BlockOp s (bufferWrite s off n v)
  | stage {t : State} (hb : s.flags.busy = true) (h : sequencerStep s = .next t) : BlockOp s t
  | hardReset : BlockOp s s.hardReset

/-- `t` follows from `s` by at most one operation on the block; the fields outside the block may change
before it and after it. -/
def OneBlockOp (s t : State) : Prop :=
  ∃ (a b : Env) (u : State), BlockOp { s with env := a } u ∧ t = { u with env := b }

/-- A step that leaves the block alone. -/
theorem oneBlockOp_of_env (s : State) (e : Env) : OneBlockOp s { s with env := e } :=
  ⟨s.env, e, s, .none, rfl⟩

/-- What the fields outside the block hold before an operation is no matter. -/
theorem OneBlockOp.of_env {s t : State} {e : Env} (h : OneBlockOp { s with env := e } t) :
    OneBlockOp s t := h

/-- What becomes of the fields outside the block after an operation is no matter. -/
theorem OneBlockOp.then_env {s t : State} (h : OneBlockOp s t) (e : Env) :
    OneBlockOp s { t with env := e } := by
  obtain ⟨a, -, u, hu, rfl⟩ := h
  exact ⟨a, e, u, hu, rfl⟩

theorem hostAccess_oneBlockOp {a : Access} {s t : State} (h : hostAccess a s = .next t) :
    OneBlockOp s t := by
  rcases hostAccess_cases a s with ⟨r, e⟩ | ⟨v, -, e⟩ | ⟨off, n, v, -, -, e⟩ <;> rw [e] at h
  · cases h; exact oneBlockOp_of_env s _
  · exact ⟨_, t.env, t, .command v h, rfl⟩
  · cases h; exact ⟨_, _, _, .buffer off n v, rfl⟩

theorem performLine_oneBlockOp {k : Nat} {th : Thread} {l : Line} {rest : List Line} {s t : State}
    (h : performLine k th l rest s = .next t) : OneBlockOp s t := by
  unfold performLine at h
  split at h
  · cases h; exact oneBlockOp_of_env s _
  · split at h
    · cases h; exact oneBlockOp_of_env s _
    · split at h
      · next u hu => cases h; exact (hostAccess_oneBlockOp hu).then_env _
      · cases h
      · cases h

theorem sequencerTurn_oneBlockOp {s t : State} (h : sequencerTurn s = .next t) : OneBlockOp s t := by
  cases hb : s.flags.busy with
  | false => rw [sequencerTurn_idle hb] at h; cases h; exact oneBlockOp_of_env s _
  | true => rw [sequencerTurn_busy hb] at h; exact ⟨s.env, t.env, t, .stage hb h, rfl⟩

/-- An event comes to at most one operation on the block. -/
theorem perform_oneBlockOp {e : Event} {s t : State} (h : perform e s = .next t) : OneBlockOp s t := by
  cases e with
  | sequencer => exact sequencerTurn_oneBlockOp h
  | access a => exact hostAccess_oneBlockOp h
  | address a =>
    simp only [perform] at h
    rcases addressAccess_cases a s with ⟨b, -, e⟩ | ⟨-, e⟩ | ⟨-, e⟩ <;> rw [e] at h
    · exact hostAccess_oneBlockOp h
    · cases h; exact oneBlockOp_of_env s _
    · cases h; exact oneBlockOp_of_env s _
  | thread k =>
    simp only [perform, threadTurn] at h
    split at h
    · cases h; exact oneBlockOp_of_env s _
    · split at h
      · cases h; exact oneBlockOp_of_env s _
      · exact performLine_oneBlockOp h
  | bus a op => cases h; exact oneBlockOp_of_env s _
  | hardReset => cases h; exact ⟨_, _, _, .hardReset, rfl⟩

/-- A step of the machine is at most one operation on the block. -/
theorem step_oneBlockOp {s t : State} (h : step s = .next t) : OneBlockOp s t := by
  rcases step_cases s with ⟨-, e⟩ | ⟨v, es, o, -, e⟩ <;> rw [e] at h
  · exact sequencerTurn_oneBlockOp h
  · exact (perform_oneBlockOp h).of_env

/-! ### A step while a command runs -/

/-- The run of the sequencer is as it was: `BUSY`, what a run of `COMP` reads and what it writes. -/
def SameRun (s t : State) : Prop :=
  t.flags.busy = s.flags.busy ∧ t.compIn = s.compIn ∧ t.pipe = s.pipe

/-- The command that ran is over. -/
def RunEnded (t : State) : Prop := t.flags.busy = false ∧ t.stage = .idle

/-- While `BUSY = 1` a command word is dropped, touches no item of the run, or is `SRESET`, which ends the
run (30_encoding.md R99). -/
theorem commandWrite_of_busy {w : Word} {s t : State} (hb : s.flags.busy = true)
    (h : commandWrite w s = .next t) : SameRun s t ∨ RunEnded t := by
  have gate : ∀ k, engineGate s k = .next t → SameRun s t ∨ RunEnded t := by
    intro k hk
    rw [engineGate_busy k hb] at hk
    cases hk
    exact .inl ⟨rfl, rfl, rfl⟩
  have viol : malformedLock s = .next t → SameRun s t ∨ RunEnded t := by
    intro hm
    cases hm
    exact .inl ⟨rfl, rfl, rfl⟩
  unfold commandWrite at h
  split at h
  · next i hi =>
    cases i with
    | nop => cases h; exact .inl ⟨rfl, rfl, rfl⟩
    | calld => exact gate _ h
    | rawld => exact gate _ h
    | comp => exact gate _ h
    | clrerr => exact gate _ h
    | sreset => cases h; exact .inr ⟨rfl, rfl⟩
    | lockTry a =>
      simp only [exec, execLockTry] at h
      split at h
      · cases h
        cases hh : s.lock.held with
        | true => rw [State.tryLock_held a hh]; exact .inl ⟨rfl, rfl, rfl⟩
        | false => rw [State.tryLock_free a hh]; exact .inl ⟨rfl, rfl, rfl⟩
      · exact viol h
    | lockRel a =>
      simp only [exec, execLockRel] at h
      split at h
      · cases h
        by_cases hh : s.lock.held = true ∧ s.lock.owner = a
        · rw [State.releaseLock_owner hh.1 hh.2]; exact .inl ⟨rfl, rfl, rfl⟩
        · rw [State.releaseLock_other hh]; exact .inl ⟨rfl, rfl, rfl⟩
      · exact viol h
  · exact viol h
  · exact gate _ h
  · exact gate _ h

/-- A write in the buffer region touches no item of the run. -/
theorem bufferWrite_sameRun (s : State) (off n : Nat) (v : Word) : SameRun s (bufferWrite s off n v) := by
  rcases bufferWrite_cases s off n v with ⟨-, -, e⟩ | ⟨-, -, e⟩ | ⟨-, e⟩ <;> rw [e] <;>
    exact ⟨rfl, rfl, rfl⟩

/-- What a step does to a running command: nothing, one stage of it, or its end. -/
theorem step_of_busy {s t : State} (hb : s.flags.busy = true) (h : step s = .next t) :
    SameRun s t ∨ (∃ u v, SameRun s u ∧ sequencerStep u = .next v ∧ SameRun v t) ∨
      RunEnded t := by
  obtain ⟨a, b, u, hu, rfl⟩ := step_oneBlockOp h
  cases hu with
  | none => exact .inl ⟨rfl, rfl, rfl⟩
  | command w hw =>
    obtain hs | he := commandWrite_of_busy (s := { s with env := a }) hb hw
    · exact .inl hs
    · exact .inr (.inr he)
  | buffer off n v => exact .inl (bufferWrite_sameRun { s with env := a } off n v)
  | stage _ hq => exact .inr (.inl ⟨{ s with env := a }, u, ⟨rfl, rfl, rfl⟩, hq, ⟨rfl, rfl, rfl⟩⟩)
  | hardReset => exact .inr (.inr ⟨rfl, rfl⟩)

/-! ### The stages a command still has -/

/-- The turns a command needs at most from a stage on, its commit among them (30_encoding.md R102). -/
def Stage.turnsLeft : Stage → Nat
  | .idle => 0
  | .calParse => 3
  | .calCheck => 2
  | .calCommit => 1
  | .rawDecode => 3
  | .rawCheck => 2
  | .rawCommit => 1
  | .tS1 => 18
  | .tS2 => 17
  | .tS3 => 16
  | .tS4 => 15
  | .pS1 => 14
  | .pS2 => 13
  | .pS3 => 12
  | .pS4 => 11
  | .pS5 => 10
  | .pS6 => 9
  | .pS7 => 8
  | .pS8 => 7
  | .pS9 => 6
  | .pS10 => 5
  | .pS11 => 4
  | .pS12 => 3
  | .fcvt => 2
  | .compCommit => 1

theorem Stage.turnsLeft_eq_zero {st : Stage} : st.turnsLeft = 0 ↔ st = .idle := by
  cases st <;> decide

theorem Stage.turnsLeft_le_of_comp {st : Stage} (h : st.command = some .comp) : st.turnsLeft ≤ 18 := by
  revert h
  cases st <;> decide

/-- A datapath stage goes on to a later one. -/
theorem pipeStep_turnsLeft (c : CompIn) {p : Pipe} (h : p.stage.isDatapath = true) :
    (pipeStep c p).stage.turnsLeft < p.stage.turnsLeft := by
  obtain ⟨st, tm, z, o⟩ := p
  cases st with
  | idle | calParse | calCheck | calCommit | rawDecode | rawCheck | rawCommit | compCommit => cases h
  | pS7 =>
    simp only [pipeStep, pipePS7]
    split
    · show (2 : Nat) < 8
      decide
    · show (7 : Nat) < 8
      decide
  | _ => exact Nat.lt_succ_self _

/-- A stage of a running command ends it or goes on to a later stage of it. -/
theorem sequencerStep_turnsLeft {s t : State} (h : sequencerStep s = .next t) :
    RunEnded t ∨
      (t.flags.busy = s.flags.busy ∧ t.stage ≠ .idle ∧ t.stage.turnsLeft < s.stage.turnsLeft) := by
  rcases sequencerStep_next h with ⟨hs, rfl⟩ | ⟨hs, rfl⟩ | ⟨hs, rfl⟩ | ⟨hs, rfl⟩ | ⟨hs, rfl⟩ | ⟨hs, rfl⟩ |
    ⟨hs, rfl⟩ | ⟨hs, rfl⟩
  · exact .inr ⟨rfl, nofun, hs ▸ (by decide : Stage.turnsLeft .calCheck < Stage.turnsLeft .calParse)⟩
  · unfold stageCalCheck
    split
    · exact .inl ⟨rfl, rfl⟩
    · exact .inr ⟨rfl, nofun, hs ▸ (by decide : Stage.turnsLeft .calCommit < Stage.turnsLeft .calCheck)⟩
  · exact .inl ⟨rfl, rfl⟩
  · exact .inr ⟨rfl, nofun, hs ▸ (by decide : Stage.turnsLeft .rawCheck < Stage.turnsLeft .rawDecode)⟩
  · unfold stageRawCheck
    split
    · exact .inl ⟨rfl, rfl⟩
    · exact .inr ⟨rfl, nofun, hs ▸ (by decide : Stage.turnsLeft .rawCommit < Stage.turnsLeft .rawCheck)⟩
  · exact .inl ⟨rfl, rfl⟩
  · refine .inr ⟨rfl, fun hi => ?_, pipeStep_turnsLeft s.compIn (p := s.pipe) hs⟩
    have hc : (stageDatapath s).stage.command = some .comp := pipeStep_command s.compIn (p := s.pipe) hs
    rw [hi] at hc
    cases hc
  · exact .inl ⟨rfl, rfl⟩

/-! ### Every command ends -/

/-- From a stage, as many turns as it has left lead to `BUSY = 0`. -/
theorem sequencerTurns_end {s : State} {m : Nat} (hb : s.flags.busy = true) (hi : s.stage ≠ .idle)
    (hm : s.stage.turnsLeft ≤ m) :
    ∃ (n : Nat) (t : State), n ≤ m ∧ sequencerTurns n s = .next t ∧ t.flags.busy = false := by
  induction m generalizing s with
  | zero => exact absurd (Stage.turnsLeft_eq_zero.mp (Nat.le_zero.mp hm)) hi
  | succ m ih =>
    have hq := sequencerStep_eq hi
    have hturn : sequencerTurn s = .next (stageEffect s) := (sequencerTurn_busy hb).trans hq
    obtain ⟨he, -⟩ | ⟨hb', hi', hlt⟩ := sequencerStep_turnsLeft hq
    · exact ⟨1, stageEffect s, by omega, sequencerTurns_succ 0 hturn, he⟩
    · obtain ⟨n, t, hn, ht, he⟩ := ih (hb'.trans hb) hi' (by omega)
      exact ⟨n + 1, t, by omega, (sequencerTurns_succ n hturn).trans ht, he⟩

theorem SameRun.stage_eq {s t : State} (h : SameRun s t) : t.stage = s.stage :=
  congrArg Pipe.stage h.2.2

/-- No step that leaves `BUSY = 1` gives a running command more turns to take. -/
theorem step_turnsLeft {s t : State} (hb : s.flags.busy = true) (hb' : t.flags.busy = true)
    (h : step s = .next t) : t.stage.turnsLeft ≤ s.stage.turnsLeft := by
  rcases step_of_busy hb h with hst | ⟨u, v, hsu, hq, hvt⟩ | ⟨he, -⟩
  · rw [hst.stage_eq]
  · rw [hvt.stage_eq, ← hsu.stage_eq]
    obtain ⟨he, -⟩ | ⟨-, -, hlt⟩ := sequencerStep_turnsLeft hq
    · exact absurd (hvt.1.trans he) (by simp [hb'])
    · exact hlt.le
  · exact absurd he (by simp [hb'])

/-- A turn of the sequencer that leaves `BUSY = 1` takes one of the turns left. -/
theorem sequencerEvent_turnsLeft {s t : State} (hb : s.flags.busy = true) (hb' : t.flags.busy = true)
    (h : step (s.choosing .sequencer) = .next t) : t.stage.turnsLeft < s.stage.turnsLeft := by
  rw [step_choosing, perform, sequencerTurn_busy (s := s.withInputs []) hb] at h
  obtain ⟨he, -⟩ | ⟨-, -, hlt⟩ := sequencerStep_turnsLeft h
  · exact absurd he (by simp [hb'])
  · exact hlt

/-- On an endless run that is fair to the sequencer no command runs for ever. -/
theorem busy_not_forever {ord : Nat → Event} {σ : Nat → State} (hrun : EndlessRun ord σ)
    (hfair : SequencerFair ord σ) (i : Nat) : ¬∀ j, i ≤ j → (σ j).flags.busy = true := by
  intro hbusy
  have mono : ∀ j, i ≤ j → (σ (j + 1)).stage.turnsLeft ≤ (σ j).stage.turnsLeft := fun j hj =>
    step_turnsLeft (s := (σ j).choosing (ord j)) (hbusy j hj) (hbusy (j + 1) (by omega)) (hrun j)
  induction hm : (σ i).stage.turnsLeft using Nat.strong_induction_on generalizing i with
  | _ m ih =>
    obtain ⟨j, hij, hj⟩ := hfair i hbusy
    have le : (σ j).stage.turnsLeft ≤ m := by
      rw [← hm]
      exact Nat.le_induction le_rfl (fun k hk h => (mono k hk).trans h) j hij
    have lt : (σ (j + 1)).stage.turnsLeft < (σ j).stage.turnsLeft :=
      sequencerEvent_turnsLeft (hbusy j hij) (hbusy (j + 1) (by omega)) (hj ▸ hrun j)
    exact ih _ (lt.trans_le le) (j + 1) (fun k hk => hbusy k (by omega)) (fun k hk => mono k (by omega)) rfl

/-- Settles O44: every stage leaves a command fewer turns, no other step gives it more, and a fair run
keeps giving the sequencer turns. -/
theorem commandsEndInBoundedTurns : Obligations.CommandsEndInBoundedTurns := by
  refine ⟨fun s hb => ⟨fun hs => ?_, fun hs => ?_⟩, fun ord σ hrun hfair i hb => ?_⟩
  · rcases hs with hs | hs <;>
      exact sequencerTurns_end hb (by simp [hs]) (by simp [hs, Stage.turnsLeft])
  · exact sequencerTurns_end hb (fun hi => by simp [hi, Stage.command] at hs) (Stage.turnsLeft_le_of_comp hs)
  · by_contra hn
    push Not at hn
    exact busy_not_forever hrun hfair i fun j hj => by simpa using hn j hj

/-! ### The turn of the sequencer -/

/-- Settles O7: by the three cases of `step`. -/
theorem sequencerStepsExactlyWhenBusy : Obligations.SequencerStepsExactlyWhenBusy := by
  intro s rest
  refine ⟨fun hi => ?_, fun hi ho => ?_, fun n hi ho => ?_⟩
  · have turn : step s = sequencerTurn (s.withInputs rest) := by simp [step, hi, perform]
    rw [turn]
    exact ⟨fun hb => sequencerTurn_busy hb, fun hb => sequencerTurn_idle hb⟩
  · have turn : step s = sequencerTurn s := by simp [step, hi, ho]
    rw [turn]
    exact ⟨sequencerTurn_busy, sequencerTurn_idle⟩
  · simp [step, hi, ho, State.withOrder]

end Sys2Proof.Machine

/-! ### The trace of `COMP`

The datapath stages, run one after another, store the values of the expressions `Compensate` composes and
collect their overflows; a run of `COMP` stays on that trace whatever steps come between its stages. -/

namespace Sys2Proof.Machine

/-- `COMP_COMMIT` is the last stage of the datapath: runs that have come to it are equal. -/
theorem pipeRun_commit_unique (c : CompIn) (p : Pipe) {m n : Nat}
    (hm : (pipeRun c m p).stage = .compCommit) (hn : (pipeRun c n p).stage = .compCommit) :
    pipeRun c m p = pipeRun c n p := by
  have stay : ∀ (q : Pipe) (k : Nat), q.stage = .compCommit → pipeRun c k q = q := by
    intro q k hq
    induction k with
    | zero => rfl
    | succ k ih => rw [pipeRun, pipeStep_other c (by rw [hq]; rfl), ih]
  rcases Nat.le_total m n with h | h <;> obtain ⟨k, rfl⟩ := Nat.exists_eq_add_of_le h
  · rw [pipeRun_add, stay _ k hm]
  · rw [pipeRun_add, stay _ k hn]

/-- `TNUM` of `T_S4` as a function of the inputs, R150 to R153 composed. -/
def compensateTnum (c : CompIn) : Flagged :=
  exprTnum (compensateFine c) (.pure c.cfg.tMul) (.pure c.cfg.tRnd)

theorem compensateTnum_ovf_of_fine {c : CompIn} (h : (compensateFine c).ovf = true) :
    (compensateTnum c).ovf = true := by
  rw [compensateTnum, exprTnum_after (compensateFine c)]
  simp [h]

/-- `T_S1` to `T_S4` store the values of the composed expressions and leave their overflows in `OVF`. -/
theorem pipeRun_temperature (c : CompIn) (t : Temps) :
    ∃ t' : Temps, pipeRun c 4 ⟨.tS1, t, false, false⟩ = ⟨.pS1, t', false, (compensateTnum c).ovf⟩ ∧
      t'.fine = (compensateFine c).val ∧ t'.tnum = (compensateTnum c).val ∧
      t'.tcenti = (exprTcenti (compensateTnum c)).val := by
  refine ⟨(pipeRun c 4 ⟨.tS1, t, false, false⟩).tmp, ?_⟩
  simp only [compensateTnum, compensateFine]
  generalize hv1 : exprV1 (exprA c.rawT (c.coeff 0)) (c.coeff 1) = v1
  generalize hv2 : exprV2 (exprB c.rawT (c.coeff 0)) (c.coeff 2) = v2
  rw [exprTnum_after (exprFine v1 v2), exprFine_after v1 v2]
  simp [pipeRun, pipeStep, pipeTS1, pipeTS2, pipeTS3, pipeTS4, hv1, hv2, exprTcenti, Flagged.sra,
    Bool.or_assoc]

/-- `P_S1` to `P_S6`, behind a fine temperature whose overflow `OVF` already holds, store `Y` and the
denominator term and leave their overflows in `OVF`. -/
theorem pipeRun_denominator (c : CompIn) (t : Temps) (o : Bool) {fine : Flagged}
    (hf : t.fine = fine.val) (ho : fine.ovf = true → o = true) :
    ∃ t' : Temps, pipeRun c 6 ⟨.pS1, t, false, o⟩ =
        ⟨.pS7, t', false, o || (compensateY c fine).ovf || (compensateDenominator c fine).ovf⟩ ∧
      t'.y = (compensateY c fine).val ∧ t'.x = (compensateDenominator c fine).val ∧
      t'.fine = t.fine ∧ t'.tnum = t.tnum ∧ t'.tcenti = t.tcenti := by
  refine ⟨(pipeRun c 6 ⟨.pS1, t, false, o⟩).tmp, ?_⟩
  simp only [compensateY, compensateDenominator, CompIn.coeff]
  rw [exprX6_after (exprX5 _ _ _), exprX5_after (exprX1 fine), exprY4_after (exprY3 _ _ _),
    exprY3_after (exprY2 _ _) (exprX1 fine), exprY2_after (exprX1 fine), exprX1_after fine]
  simp only [pipeRun, pipeStep, pipePS1, pipePS2, pipePS3, pipePS4, pipePS5, pipePS6, CompIn.coeff, hf,
    Flagged.after_val, Flagged.after_ovf, Pipe.mk.injEq, true_and, and_true]
  rw [← Bool.or_eq_left_iff_imp.mpr ho]
  ac_rfl

/-- `P_S8` to `P_S12`, behind a `Y` and a denominator term whose overflows `OVF` already holds, store the
pressure and leave its overflow in `OVF`. -/
theorem pipeRun_pressure (c : CompIn) (t : Temps) (o : Bool) {y x : Flagged} (hy : t.y = y.val)
    (hx : t.x = x.val) (hoy : y.ovf = true → o = true) (hox : x.ovf = true → o = true) :
    ∃ t' : Temps, pipeRun c 5 ⟨.pS8, t, false, o⟩ =
        ⟨.fcvt, t', false, o || (compensatePressure c y x).ovf⟩ ∧
      t'.p = (compensatePressure c y x).val ∧
      t'.fine = t.fine ∧ t'.tnum = t.tnum ∧ t'.tcenti = t.tcenti := by
  refine ⟨(pipeRun c 5 ⟨.pS8, t, false, o⟩).tmp, ?_⟩
  simp only [compensatePressure, CompIn.coeff]
  rw [exprP12_after (exprP9 _ _ _) (exprX10 _ _) (exprY11 _ _), exprX10_after _ (exprP9 _ _ _),
    exprY11_after _ (exprP9 _ _ _), exprP9_after _ y x]
  simp only [pipeRun, pipeStep, pipePS8, pipePS9, pipePS10, pipePS11, pipePS12, CompIn.coeff, hy, hx,
    Flagged.after_val, Flagged.after_ovf, Pipe.mk.injEq, true_and, and_true]
  rw [← Bool.or_eq_left_iff_imp.mpr hoy, ← Bool.or_eq_left_iff_imp.mpr hox]
  ac_rfl

/-- A datapath that has come to `COMP_COMMIT` with what `Compensate` returns of `c`. -/
def HoldsCompensate (c : CompIn) (p : Pipe) : Prop :=
  p.stage = .compCommit ∧ p.tmp.results = (compensate c).res ∧ p.zden = (compensate c).zden ∧
    p.ovf = (compensate c).ovf

/-- The datapath stages compose to `Compensate` (42_compensation.md R169), whatever the temporaries held
before them; the commit is one turn more (30_encoding.md R102). -/
theorem pipeRun_compensate (c : CompIn) (t : Temps) :
    HoldsCompensate c
      (pipeRun c (if (compensate c).zden then 12 else 17) ⟨.tS1, t, false, false⟩) := by
  obtain ⟨t₁, h₁, hfine, htnum, htcenti⟩ := pipeRun_temperature c t
  obtain ⟨t₂, h₂, hy, hx, hfine₂, htnum₂, htcenti₂⟩ :=
    pipeRun_denominator c t₁ _ hfine compensateTnum_ovf_of_fine
  have h := (pipeRun_add c 4 6 ⟨.tS1, t, false, false⟩).trans (h₁ ▸ h₂)
  by_cases h0 : (compensateDenominator c (compensateFine c)).val = 0#64
  · have zden : (compensate c).zden = true := by simp [compensate, h0]
    rw [if_pos zden, pipeRun_add c (4 + 6) 2, h]
    simp [HoldsCompensate, pipeRun, pipeStep, pipePS7, pipeFcvt, compensate, Temps.results, hx, h0, hfine₂,
      htnum₂, htcenti₂, hfine, htnum, htcenti, compensateTnum]
  · obtain ⟨t₃, h₃, hp, hfine₃, htnum₃, htcenti₃⟩ := pipeRun_pressure c t₂
      ((compensateTnum c).ovf || (compensateY c (compensateFine c)).ovf ||
        (compensateDenominator c (compensateFine c)).ovf) hy hx (by simp +contextual) (by simp +contextual)
    have guard (o : Bool) : pipeRun c 1 ⟨.pS7, t₂, false, o⟩ = ⟨.pS8, t₂, false, o⟩ := by
      simp [pipeRun, pipeStep, pipePS7, hx, h0]
    have zden : ¬(compensate c).zden = true := by simp [compensate, h0]
    rw [if_neg zden, pipeRun_add c (4 + 6) (1 + (5 + 1)), h, pipeRun_add, guard, pipeRun_add, h₃]
    simp [HoldsCompensate, pipeRun, pipeStep, pipeFcvt, compensate, Temps.results, h0, hfine₃, htnum₃,
      htcenti₃, hfine₂, htnum₂, htcenti₂, hfine, htnum, htcenti, hp, compensateTnum]

/-- A run of `COMP` that was accepted with the inputs `c` is on its trace (42_compensation.md R172): the
inputs are as they were, and what it has written is what the datapath writes from `T_S1` on. -/
def OnTraceOf (c : CompIn) (t₀ : Temps) (s : State) : Prop :=
  s.flags.busy = true ∧ s.compIn = c ∧ ∃ k, pipeRun c k ⟨.tS1, t₀, false, false⟩ = s.pipe

theorem OnTraceOf.sameRun {c : CompIn} {t₀ : Temps} {s t : State} (hs : OnTraceOf c t₀ s)
    (h : SameRun s t) : OnTraceOf c t₀ t := by
  obtain ⟨hb, hc, k, hk⟩ := hs
  obtain ⟨hb', hc', hp'⟩ := h
  exact ⟨hb'.trans hb, hc'.trans hc, k, hk.trans hp'.symm⟩

/-- A stage of `COMP` goes on along the trace or ends the run. -/
theorem OnTraceOf.sequencerStep {c : CompIn} {t₀ : Temps} {s t : State} (hs : OnTraceOf c t₀ s)
    (hst : s.stage.command = some .comp) (h : sequencerStep s = .next t) :
    OnTraceOf c t₀ t ∨ RunEnded t := by
  obtain ⟨hb, hc, k, hk⟩ := hs
  rcases sequencerStep_next h with ⟨hq, -⟩ | ⟨hq, -⟩ | ⟨hq, -⟩ | ⟨hq, -⟩ | ⟨hq, -⟩ | ⟨hq, -⟩ |
    ⟨-, rfl⟩ | ⟨-, rfl⟩
  iterate 6 rw [hq] at hst; cases hst
  · exact .inl ⟨hb, hc, k + 1, by rw [pipeRun_succ, hk, ← hc]; rfl⟩
  · exact .inr ⟨rfl, rfl⟩

/-- Whatever the hosts do, a step keeps a run of `COMP` on its trace or ends it. -/
theorem OnTraceOf.step {c : CompIn} {t₀ : Temps} {s t : State} (hs : OnTraceOf c t₀ s)
    (hst : s.stage.command = some .comp) (h : step s = .next t) : OnTraceOf c t₀ t ∨ RunEnded t := by
  rcases step_of_busy hs.1 h with hsame | ⟨u, v, hsu, hq, hvt⟩ | hend
  · exact .inl (hs.sameRun hsame)
  · obtain hv | ⟨hb, hi⟩ := (hs.sameRun hsu).sequencerStep (hsu.stage_eq ▸ hst) hq
    · exact .inl (hv.sameRun hvt)
    · exact .inr ⟨hvt.1.trans hb, hvt.stage_eq.trans hi⟩
  · exact .inr hend

/-- A run of the machine that stays in the stages of `COMP` stays on the trace of its first state. -/
theorem run_onTraceOf {σ : Nat → State} {n : Nat} {c : CompIn} {t₀ : Temps} (hrun : Run σ n)
    (h0 : OnTraceOf c t₀ (σ 0)) (hst : ∀ i, i ≤ n → (σ i).stage.command = some .comp) :
    ∀ i, i ≤ n → OnTraceOf c t₀ (σ i) := by
  intro i
  induction i with
  | zero => exact fun _ => h0
  | succ i ih =>
    intro hi
    obtain hon | ⟨-, hidle⟩ := (ih (by omega)).step (hst i (by omega)) (hrun i (by omega))
    · exact hon
    · have := hst (i + 1) hi
      rw [hidle] at this
      cases this

/-- At `COMP_COMMIT` a run on its trace holds what `Compensate` returns. -/
theorem OnTraceOf.holdsCompensate {c : CompIn} {t₀ : Temps} {s : State} (hs : OnTraceOf c t₀ s)
    (hst : s.stage = .compCommit) : HoldsCompensate c s.pipe := by
  obtain ⟨-, -, k, hk⟩ := hs
  have hcomp := pipeRun_compensate c t₀
  rw [← hk, pipeRun_commit_unique c _ (hk ▸ hst) hcomp.1]
  exact hcomp

/-- Settles O43: every step keeps a run of `COMP` on its trace (42_compensation.md R172), and the trace
leads to `Compensate`. -/
theorem interleavedCompIsPure : Obligations.InterleavedCompIsPure := by
  intro σ n hrun hinv hst0 hz ho hst hcommit
  have busy : (σ 0).flags.busy = true := by
    rw [← Bool.not_eq_false, ← hinv.idleIffNotBusy, hst0]
    exact nofun
  have start : OnTraceOf (σ 0).compIn (σ 0).tmp (σ 0) := by
    refine ⟨busy, rfl, 0, ?_⟩
    rw [State.pipe, hst0, hz, ho]
    rfl
  obtain ⟨-, hres, hzden, hovf⟩ :=
    (run_onTraceOf hrun start hst n le_rfl).holdsCompensate hcommit
  exact ⟨stageCompCommit (σ n), by rw [sequencerStep, hcommit], hres, hzden, hovf⟩

end Sys2Proof.Machine

/-! ### The rounding of the final floating division

In units of the last place, `fdiv32` is the integer nearest the exact quotient, ties to even, and the quotient
is at least `2^23`; a binary32 number is an integer in these units or smaller than `2^23`. -/

namespace Sys2Proof.Machine

/-! ### Rounding to the nearest integer, ties to even -/

/-- `roundHalfEven` takes the integer below or above, whichever is not farther, and the even one of two that
are as near. -/
theorem roundHalfEven_cases (num den : Nat) :
    (roundHalfEven num den = num / den ∧ 2 * (num % den) ≤ den ∧
      (2 * (num % den) = den → num / den % 2 = 0)) ∨
    (roundHalfEven num den = num / den + 1 ∧ den ≤ 2 * (num % den) ∧
      (2 * (num % den) = den → (num / den + 1) % 2 = 0)) := by
  unfold roundHalfEven
  dsimp only
  split_ifs with hlt hgt heven
  · exact .inl ⟨rfl, hlt.le, fun h => absurd h hlt.ne⟩
  · exact .inr ⟨rfl, hgt.le, fun h => absurd h hgt.ne'⟩
  · exact .inl ⟨rfl, not_lt.mp hgt, fun _ => heven⟩
  · exact .inr ⟨rfl, not_lt.mp hlt, fun _ => by omega⟩

/-- The error of `roundHalfEven` as a fraction of the divisor. -/
theorem roundHalfEven_error (num : Nat) {den : Nat} (hd : 0 < den) :
    ∃ k : Nat, |(roundHalfEven num den : ℚ) - num / den| = k / den ∧ 2 * k ≤ den ∧
      (2 * k = den → roundHalfEven num den % 2 = 0) := by
  have hd' : (den : ℚ) ≠ 0 := by exact_mod_cast hd.ne'
  have hnum : (num : ℚ) = den * (num / den : ℕ) + (num % den : ℕ) := by
    exact_mod_cast (Nat.div_add_mod num den).symm
  have hmod : num % den < den := Nat.mod_lt num hd
  rcases roundHalfEven_cases num den with ⟨hq, hle, htie⟩ | ⟨hq, hle, htie⟩
  · refine ⟨num % den, ?_, hle, hq ▸ htie⟩
    have err : ((num / den : ℕ) : ℚ) - num / den = -((num % den : ℕ) / den) := by
      field_simp
      linarith
    rw [hq, err, abs_neg, abs_of_nonneg (by positivity)]
  · refine ⟨den - num % den, ?_, by omega, fun h => hq ▸ htie (by omega)⟩
    have err : ((num / den + 1 : ℕ) : ℚ) - num / den = (den - num % den : ℕ) / den := by
      rw [Nat.cast_sub hmod.le]
      field_simp
      push_cast
      linarith
    rw [hq, err, abs_of_nonneg (by positivity)]

/-- The error of `roundHalfEven` is at most one half, and is one half only where the result is even. -/
theorem roundHalfEven_near (num : Nat) {den : Nat} (hd : 0 < den) :
    |(roundHalfEven num den : ℚ) - num / den| ≤ 1 / 2 ∧
      (|(roundHalfEven num den : ℚ) - num / den| = 1 / 2 → roundHalfEven num den % 2 = 0) := by
  obtain ⟨k, hk, hle, htie⟩ := roundHalfEven_error num hd
  have hd' : (0 : ℚ) < den := by exact_mod_cast hd
  rw [hk, div_le_div_iff₀ hd' two_pos, div_eq_div_iff hd'.ne' two_ne_zero]
  refine ⟨by exact_mod_cast (by omega : k * 2 ≤ 1 * den), fun h => htie ?_⟩
  have half : k * 2 = 1 * den := by exact_mod_cast h
  omega

/-- A number on the grid of spacing 1 above `2^23`: an integer, or smaller than `2^23`. -/
def OnGrid (w : ℚ) : Prop := (∃ m : ℤ, w = m) ∨ |w| < 2 ^ 23

theorem OnGrid.neg {w : ℚ} (h : OnGrid w) : OnGrid (-w) := by
  obtain ⟨m, rfl⟩ | h := h
  · exact .inl ⟨-m, by simp⟩
  · exact .inr (by rwa [abs_neg])

/-- An integer within one half of `y` is nearest to `y` among the integers; another one that is as near is
one half away. -/
theorem nearest_integer {q m : ℤ} {y : ℚ} (hq : |(q : ℚ) - y| ≤ 1 / 2) :
    |(q : ℚ) - y| ≤ |(m : ℚ) - y| ∧
      (|(q : ℚ) - y| = |(m : ℚ) - y| → (m : ℚ) ≠ q → |(q : ℚ) - y| = 1 / 2) := by
  rcases eq_or_ne m q with rfl | hne
  · exact ⟨le_rfl, fun _ h => absurd rfl h⟩
  · have one : (1 : ℚ) ≤ |(m : ℚ) - q| := by exact_mod_cast Int.one_le_abs (sub_ne_zero.mpr hne)
    have tri : |(m : ℚ) - q| ≤ |(m : ℚ) - y| + |(q : ℚ) - y| :=
      abs_sub_comm (q : ℚ) y ▸ abs_sub_le _ _ _
    exact ⟨by linarith, fun h _ => by linarith⟩

/-- An integer within one half of `y`, from `2^23` on, is nearest to `y` on the grid; another number of the
grid that is as near means that the integer is one half away. -/
theorem nearest_onGrid {q : ℤ} {w y : ℚ} (hy : 2 ^ 23 ≤ y) (hq : |(q : ℚ) - y| ≤ 1 / 2) (hw : OnGrid w) :
    |(q : ℚ) - y| ≤ |w - y| ∧ (|(q : ℚ) - y| = |w - y| → w ≠ q → |(q : ℚ) - y| = 1 / 2) := by
  obtain ⟨m, rfl⟩ | hw := hw
  · exact nearest_integer hq
  · have near := (nearest_integer (m := 2 ^ 23) hq).1
    push_cast at near
    have edge : |(2 : ℚ) ^ 23 - y| < |w - y| := by
      rw [abs_sub_comm, abs_of_nonneg (sub_nonneg.mpr hy), abs_sub_comm w]
      exact (sub_lt_sub_left (lt_of_abs_lt hw) y).trans_le (le_abs_self _)
    exact ⟨(near.trans_lt edge).le, fun h => absurd h (near.trans_lt edge).ne⟩

/-! ### The scale of a quotient -/

/-- `floatScale` is the exponent of the power of two below the quotient, offset by 64. -/
theorem floatScale_spec {num den : Nat} (hn : num ≠ 0) (hn' : num < 2 ^ 64) (hd : den ≠ 0)
    (hd' : den < 2 ^ 64) :
    den * 2 ^ floatScale num den ≤ num * 2 ^ 64 ∧ num * 2 ^ 63 < den * 2 ^ floatScale num den ∧
      floatScale num den < 128 := by
  have ha : num.log2 < 64 := (Nat.log2_lt hn).mpr hn'
  have hb : den.log2 < 64 := (Nat.log2_lt hd).mpr hd'
  have hnl : 2 ^ num.log2 ≤ num := Nat.log2_self_le hn
  have hnu : num < 2 ^ (num.log2 + 1) := Nat.lt_log2_self
  have hdl : 2 ^ den.log2 ≤ den := Nat.log2_self_le hd
  have hdu : den < 2 ^ (den.log2 + 1) := Nat.lt_log2_self
  have hpos : 0 < 2 ^ den.log2 := by positivity
  unfold floatScale
  generalize num.log2 = a at *
  generalize den.log2 = b at *
  split_ifs with hc
  · have he : 2 ^ (64 + a - b) * 2 ^ b = 2 ^ 64 * 2 ^ a := by rw [← pow_add, ← pow_add]; congr 1; omega
    refine ⟨Nat.le_of_mul_le_mul_right (c := 2 ^ b) ?_ hpos, Nat.lt_of_mul_lt_mul_right (a := 2 ^ b) ?_,
      by omega⟩
    · calc den * 2 ^ (64 + a - b) * 2 ^ b = 2 ^ 64 * (den * 2 ^ a) := by rw [mul_assoc, he]; ring
        _ ≤ 2 ^ 64 * (num * 2 ^ b) := Nat.mul_le_mul_left _ hc
        _ = num * 2 ^ 64 * 2 ^ b := by ring
    · calc num * 2 ^ 63 * 2 ^ b = 2 ^ 63 * (num * 2 ^ b) := by ring
        _ < 2 ^ 63 * (2 ^ (a + 1) * den) :=
          Nat.mul_lt_mul_of_pos_left
            (Nat.mul_lt_mul_of_lt_of_le hnu hdl (Nat.pos_of_ne_zero hd)) (by positivity)
        _ = den * (2 ^ 64 * 2 ^ a) := by ring
        _ = den * 2 ^ (64 + a - b) * 2 ^ b := by rw [← he]; ring
  · have he : 2 ^ (63 + a - b) * 2 ^ (b + 1) = 2 ^ 64 * 2 ^ a := by
      rw [← pow_add, ← pow_add]; congr 1; omega
    refine ⟨Nat.le_of_mul_le_mul_right (c := 2 ^ (b + 1)) ?_ (by positivity),
      Nat.lt_of_mul_lt_mul_right (a := 2 ^ (b + 1)) ?_, by omega⟩
    · calc den * 2 ^ (63 + a - b) * 2 ^ (b + 1) = 2 ^ 64 * (2 ^ a * den) := by rw [mul_assoc, he]; ring
        _ ≤ 2 ^ 64 * (num * 2 ^ (b + 1)) := Nat.mul_le_mul_left _ (Nat.mul_le_mul hnl hdu.le)
        _ = num * 2 ^ 64 * 2 ^ (b + 1) := by ring
    · calc num * 2 ^ 63 * 2 ^ (b + 1) = 2 ^ 64 * (num * 2 ^ b) := by ring
        _ < 2 ^ 64 * (den * 2 ^ a) := Nat.mul_lt_mul_of_pos_left (not_le.mp hc) (by positivity)
        _ = den * 2 ^ (63 + a - b) * 2 ^ (b + 1) := by rw [mul_assoc, he]; ring

/-- The quotient in units of the last place of its binary32 rounding. -/
def scaledQuotient (num den : Nat) : ℚ :=
  ((num * 2 ^ 87 : ℕ) : ℚ) / (den * 2 ^ floatScale num den : ℕ)

/-- The unit of the last place of a binary32 number at scale `e`. -/
def floatUlp (e : Nat) : ℚ := 2 ^ e / 2 ^ 87

theorem floatUlp_pos (e : Nat) : 0 < floatUlp e := by
  unfold floatUlp
  positivity

/-- The operands of a floating division that is not of zero. -/
structure DivisionOperands (num den : Nat) : Prop where
  num_ne : num ≠ 0
  num_lt : num < 2 ^ 64
  den_ne : den ≠ 0
  den_lt : den < 2 ^ 64

theorem scaledQuotient_mul_ulp (num den : Nat) :
    scaledQuotient num den * floatUlp (floatScale num den) = num / den := by
  unfold scaledQuotient floatUlp
  have hscale : (2 : ℚ) ^ floatScale num den ≠ 0 := by positivity
  have hunit : (2 : ℚ) ^ 87 ≠ 0 := by positivity
  simp only [Nat.cast_mul, Nat.cast_pow, Nat.cast_ofNat]
  generalize (2 : ℚ) ^ 87 = k at hunit ⊢
  field_simp

/-- The scale puts the quotient's leading bit at `2^23`. -/
theorem scaledQuotient_mem {num den : Nat} (h : DivisionOperands num den) :
    2 ^ 23 ≤ scaledQuotient num den ∧ scaledQuotient num den < 2 ^ 24 := by
  obtain ⟨hlo, hhi, -⟩ := floatScale_spec h.num_ne h.num_lt h.den_ne h.den_lt
  have hpos : (0 : ℚ) < (den * 2 ^ floatScale num den : ℕ) := by
    exact_mod_cast Nat.mul_pos (Nat.pos_of_ne_zero h.den_ne) (by positivity)
  have lo : 2 ^ 23 * (den * 2 ^ floatScale num den) ≤ num * 2 ^ 87 := by
    calc _ ≤ 2 ^ 23 * (num * 2 ^ 64) := Nat.mul_le_mul_left _ hlo
      _ = num * 2 ^ 87 := by ring
  have hi : num * 2 ^ 87 < 2 ^ 24 * (den * 2 ^ floatScale num den) := by
    calc num * 2 ^ 87 = 2 ^ 24 * (num * 2 ^ 63) := by ring
      _ < _ := Nat.mul_lt_mul_of_pos_left hhi (by positivity)
  unfold scaledQuotient
  rw [le_div_iff₀ hpos, div_lt_iff₀ hpos]
  exact ⟨by exact_mod_cast lo, by exact_mod_cast hi⟩

/-- The significand is the scaled quotient rounded to the nearest integer. -/
theorem floatSignificand_near {num den : Nat} (h : DivisionOperands num den) :
    |(floatSignificand num den (floatScale num den) : ℚ) - scaledQuotient num den| ≤ 1 / 2 ∧
      (|(floatSignificand num den (floatScale num den) : ℚ) - scaledQuotient num den| = 1 / 2 →
        floatSignificand num den (floatScale num den) % 2 = 0) :=
  roundHalfEven_near _ (Nat.mul_pos (Nat.pos_of_ne_zero h.den_ne) (by positivity))

/-- The significand has its leading one, or is the carry `2^24`. -/
theorem floatSignificand_mem {num den : Nat} (h : DivisionOperands num den) :
    2 ^ 23 ≤ floatSignificand num den (floatScale num den) ∧
      floatSignificand num den (floatScale num den) ≤ 2 ^ 24 := by
  obtain ⟨hlo, hhi⟩ := scaledQuotient_mem h
  obtain ⟨herr, -⟩ := abs_le.mp (floatSignificand_near h).1
  obtain ⟨-, herr'⟩ := abs_le.mp (floatSignificand_near h).1
  generalize floatSignificand num den (floatScale num den) = q at *
  have lo : ((2 ^ 23 : ℕ) : ℚ) < (q + 1 : ℕ) := by push_cast; linarith
  have hi : (q : ℚ) < (2 ^ 24 + 1 : ℕ) := by push_cast; linarith
  exact ⟨Nat.lt_succ_iff.mp (by exact_mod_cast lo), Nat.lt_succ_iff.mp (by exact_mod_cast hi)⟩

/-! ### The value of a pattern -/

theorem floatExponent_eq (w : Word) : floatExponent w = w.toNat / 2 ^ 23 % 2 ^ 8 := by
  simp [floatExponent, Nat.shiftRight_eq_div_pow]

theorem floatFraction_eq (w : Word) : floatFraction w = w.toNat % 2 ^ 23 := by
  simp [floatFraction]

theorem floatFraction_lt (w : Word) : floatFraction w < 2 ^ 23 := by
  rw [floatFraction_eq]
  exact Nat.mod_lt _ (by positivity)

/-- The magnitude of a pattern written as an exponent field to which the leading one of the significand `q`,
or its carry, is added. -/
theorem floatAbs_of_significand {w : Word} {e q : Nat} (hw : w.toNat % 2 ^ 31 = (e + 62) * 2 ^ 23 + q)
    (he : e < 128) (hlo : 2 ^ 23 ≤ q) (hhi : q ≤ 2 ^ 24) : floatAbs w = q * floatUlp e := by
  have value : (2 ^ 23 + floatFraction w) * 2 ^ floatExponent w = q * 2 ^ (e + 63) ∧
      floatExponent w ≠ 0 := by
    rcases hhi.lt_or_eq with hlt | rfl
    · have hE : floatExponent w = e + 63 := by rw [floatExponent_eq]; omega
      have hF : 2 ^ 23 + floatFraction w = q := by rw [floatFraction_eq]; omega
      rw [hE, hF]
      exact ⟨rfl, by omega⟩
    · have hE : floatExponent w = e + 64 := by rw [floatExponent_eq]; omega
      have hF : floatFraction w = 0 := by rw [floatFraction_eq]; omega
      rw [hE, hF]
      exact ⟨by ring, by omega⟩
  obtain ⟨hv, hne⟩ := value
  have hv' : ((2 ^ 23 + floatFraction w : ℕ) : ℚ) * 2 ^ floatExponent w = q * 2 ^ (e + 63) := by
    exact_mod_cast hv
  rw [floatAbs, if_neg hne, hv', floatUlp, pow_add]
  ring

/-- Every pattern's magnitude, in units of the last place at scale `e`, is an integer or below `2^23`. -/
theorem floatAbs_onGrid (u : Word) (e : Nat) : OnGrid (floatAbs u / floatUlp e) := by
  have hF := floatFraction_lt u
  have hU := floatUlp_pos e
  rcases Nat.lt_or_ge (floatExponent u) (e + 63) with hE | hE
  · refine .inr ?_
    have nonneg : 0 ≤ floatAbs u := by unfold floatAbs; split_ifs <;> positivity
    rw [abs_of_nonneg (by positivity), div_lt_iff₀ hU]
    have hF' : (floatFraction u : ℚ) < 2 ^ 23 := by exact_mod_cast hF
    unfold floatAbs floatUlp
    split_ifs with h0
    · calc (floatFraction u : ℚ) / 2 ^ 149 < 2 ^ 23 / 2 ^ 149 := by gcongr
        _ ≤ 2 ^ 23 * (1 / 2 ^ 87) := by norm_num
        _ ≤ 2 ^ 23 * (2 ^ e / 2 ^ 87) := by gcongr; exact one_le_pow₀ one_le_two
    · calc ((2 ^ 23 + floatFraction u : ℕ) : ℚ) * 2 ^ floatExponent u / 2 ^ 150
          = (2 ^ 23 + floatFraction u) * 2 ^ floatExponent u / 2 ^ 150 := by
            rw [Nat.cast_add, Nat.cast_pow, Nat.cast_ofNat]
        _ < (2 ^ 23 + 2 ^ 23) * 2 ^ floatExponent u / 2 ^ 150 := by gcongr
        _ ≤ (2 ^ 23 + 2 ^ 23) * 2 ^ (e + 62) / 2 ^ 150 := by gcongr; exacts [one_le_two, by omega]
        _ = 2 ^ 23 * (2 ^ e / 2 ^ 87) := by rw [pow_add]; ring
  · refine .inl ⟨(2 ^ 23 + floatFraction u) * 2 ^ (floatExponent u - (e + 63)), ?_⟩
    have hp : (2 : ℚ) ^ floatExponent u = 2 ^ (floatExponent u - (e + 63)) * (2 ^ e * 2 ^ 63) := by
      rw [← pow_add, ← pow_add, Nat.sub_add_cancel hE]
    rw [floatAbs, if_neg (by omega), hp, div_eq_iff hU.ne', floatUlp]
    push_cast
    ring

theorem floatValue_onGrid (u : Word) (e : Nat) : OnGrid (floatValue u / floatUlp e) := by
  unfold floatValue
  split
  · rw [neg_div]
    exact (floatAbs_onGrid u e).neg
  · exact floatAbs_onGrid u e

/-! ### `fdiv32` -/

/-- The magnitude bits leave bit 31 to the sign. -/
theorem floatMagnitude_lt {num den : Nat} (h : DivisionOperands num den) :
    floatMagnitude num den < 2 ^ 31 := by
  obtain ⟨-, -, he⟩ := floatScale_spec h.num_ne h.num_lt h.den_ne h.den_lt
  obtain ⟨-, hq⟩ := floatSignificand_mem h
  unfold floatMagnitude
  omega

/-- The number rounded to: the significand, in units of the last place. -/
def roundedQuotient (num den : Nat) : ℚ :=
  floatSignificand num den (floatScale num den) * floatUlp (floatScale num den)

/-- A word with the magnitude bits of `num / den` has the rounded quotient as its magnitude. -/
theorem floatAbs_of_magnitude {w : Word} {num den : Nat} (h : DivisionOperands num den)
    (hw : w.toNat % 2 ^ 31 = floatMagnitude num den) : floatAbs w = roundedQuotient num den := by
  obtain ⟨-, -, he⟩ := floatScale_spec h.num_ne h.num_lt h.den_ne h.den_lt
  obtain ⟨hlo, hhi⟩ := floatSignificand_mem h
  exact floatAbs_of_significand hw he hlo hhi

theorem floatMagnitude_mod_two (num den : Nat) :
    floatMagnitude num den % 2 = floatSignificand num den (floatScale num den) % 2 := by
  unfold floatMagnitude
  omega

/-- No number on the grid is nearer the quotient than the rounded one, and where another is as near the
significand is even. -/
theorem roundedQuotient_nearest {num den : Nat} (h : DivisionOperands num den) {v : ℚ}
    (hv : OnGrid (v / floatUlp (floatScale num den))) :
    |roundedQuotient num den - num / den| ≤ |v - num / den| ∧
      (|roundedQuotient num den - num / den| = |v - num / den| → v ≠ roundedQuotient num den →
        floatMagnitude num den % 2 = 0) := by
  have hU := floatUlp_pos (floatScale num den)
  obtain ⟨hnear, htie⟩ := floatSignificand_near h
  obtain ⟨hle, heq⟩ := nearest_onGrid (q := floatSignificand num den (floatScale num den))
    (scaledQuotient_mem h).1 (by exact_mod_cast hnear) hv
  rw [Int.cast_natCast] at hle heq
  rw [floatMagnitude_mod_two, roundedQuotient, ← scaledQuotient_mul_ulp]
  generalize (floatSignificand num den (floatScale num den) : ℚ) = q at *
  obtain ⟨w, rfl⟩ : ∃ w, v = w * floatUlp (floatScale num den) :=
    ⟨_, (div_mul_cancel₀ v hU.ne').symm⟩
  rw [mul_div_cancel_right₀ w hU.ne'] at hle heq
  simp only [← sub_mul, abs_mul, abs_of_pos hU, mul_le_mul_iff_left₀ hU, mul_left_inj' hU.ne', ne_eq]
  exact ⟨hle, fun ht hne => htie (heq ht hne)⟩

/-- The operands `fdiv32` divides are in the range its scale is made for. -/
theorem divisionOperands_of {n d : W64} (hn : n ≠ 0) (hd : 0 < d.toInt) :
    DivisionOperands n.toInt.natAbs d.toNat where
  num_ne := by
    rw [Int.natAbs_ne_zero]
    exact fun h => hn (BitVec.eq_of_toInt_eq h)
  num_lt := by
    have := BitVec.toInt_lt (x := n)
    have := BitVec.le_toInt (x := n)
    omega
  den_ne := fun h => by rw [BitVec.eq_of_toNat_eq (y := 0#64) h] at hd; cases hd
  den_lt := d.isLt

theorem signBit_eq (w : Word) : w.getLsbD 31 = decide (2 ^ 31 ≤ w.toNat) :=
  (BitVec.msb_eq_getLsbD_last w).symm.trans (BitVec.msb_eq_decide w)

theorem lowBit_eq (w : Word) : w.getLsbD 0 = decide (w.toNat % 2 = 1) := by
  rw [BitVec.getLsbD, Nat.testBit_zero]

/-- The rounded quotient with the dividend's sign. -/
def signedRounded (n d : W64) : ℚ :=
  if n.toInt < 0 then -roundedQuotient n.toInt.natAbs d.toNat
  else roundedQuotient n.toInt.natAbs d.toNat

/-- `fdiv32` is the magnitude bits under the sign bit of the dividend. -/
theorem fdiv32_toNat {n d : W64} (hn : n ≠ 0) (hd : 0 < d.toInt) :
    (fdiv32 n d).toNat =
      (if n.toInt < 0 then 2 ^ 31 else 0) + floatMagnitude n.toInt.natAbs d.toNat := by
  have hM := floatMagnitude_lt (divisionOperands_of hn hd)
  rw [fdiv32, if_neg hd.not_ge, if_neg hn]
  generalize floatMagnitude n.toInt.natAbs d.toNat = M at *
  split_ifs with hneg
  · rw [BitVec.toNat_ofNat, Nat.mod_eq_of_lt (by omega)]
  · rw [BitVec.toNat_ofNat, Nat.mod_eq_of_lt (by omega), Nat.zero_add]

theorem floatValue_fdiv32 {n d : W64} (hn : n ≠ 0) (hd : 0 < d.toInt) :
    floatValue (fdiv32 n d) = signedRounded n d := by
  have h := divisionOperands_of hn hd
  have hM := floatMagnitude_lt h
  have toNat := fdiv32_toNat hn hd
  have habs : floatAbs (fdiv32 n d) = roundedQuotient n.toInt.natAbs d.toNat :=
    floatAbs_of_magnitude h (by rw [toNat]; split_ifs <;> omega)
  rw [floatValue, signBit_eq, habs, toNat, signedRounded]
  generalize floatMagnitude n.toInt.natAbs d.toNat = M at *
  split_ifs with hneg hbit hbit
  · rfl
  · simp at hbit
  · simp at hbit; omega
  · rfl

theorem fdiv32_lowBit {n d : W64} (hn : n ≠ 0) (hd : 0 < d.toInt) :
    (fdiv32 n d).getLsbD 0 = decide (floatMagnitude n.toInt.natAbs d.toNat % 2 = 1) := by
  rw [lowBit_eq, fdiv32_toNat hn hd]
  split_ifs
  · congr 1
    simp only [eq_iff_iff]
    omega
  · rw [Nat.zero_add]

theorem abs_neg_sub_neg_div (a x y : ℚ) : |-a - -x / y| = |a - x / y| := by
  rw [neg_div, ← neg_sub', abs_neg]

/-- The number `v` is no nearer to `x` than the pattern `r`, and where it is as near and another number, `r`
is the even one (42_compensation.md R167). -/
def NearerOrEven (r : Word) (x v : ℚ) : Prop :=
  |floatValue r - x| ≤ |v - x| ∧
    (|floatValue r - x| = |v - x| → v ≠ floatValue r → r.getLsbD 0 = false)

/-- For a dividend that is not 0: in units of the last place `fdiv32` is the integer nearest the quotient,
and every binary32 number is an integer there or lies below the power of two under the quotient. -/
theorem fdiv32_nearerOrEven {n d : W64} (hn : n ≠ 0) (hd : 0 < d.toInt) (u : Word) :
    NearerOrEven (fdiv32 n d) ((n.toInt : ℚ) / (d.toInt : ℚ)) (floatValue u) := by
  have h := divisionOperands_of hn hd
  have grid := floatValue_onGrid u (floatScale n.toInt.natAbs d.toNat)
  have den : (d.toInt : ℚ) = d.toNat := by
    rw [BitVec.toInt_eq_toNat_of_lt (BitVec.toInt_pos_iff.mp hd.le), Int.cast_natCast]
  have even_of (he : floatMagnitude n.toInt.natAbs d.toNat % 2 = 0) : (fdiv32 n d).getLsbD 0 = false := by
    rw [fdiv32_lowBit hn hd, he]
    rfl
  rw [NearerOrEven, floatValue_fdiv32 hn hd, den, signedRounded]
  split_ifs with hneg
  · have num : (n.toInt : ℚ) = -(n.toInt.natAbs : ℚ) := by
      rw [Nat.cast_natAbs, abs_of_neg hneg, Int.cast_neg, neg_neg]
    obtain ⟨v, hv⟩ : ∃ v, floatValue u = -v := ⟨_, (neg_neg _).symm⟩
    rw [hv, neg_div] at grid
    obtain ⟨hle, htie⟩ := roundedQuotient_nearest h (neg_neg (v / _) ▸ grid.neg)
    rw [num, hv, abs_neg_sub_neg_div, abs_neg_sub_neg_div]
    exact ⟨hle, fun heq hne => even_of (htie heq fun hvr => hne (hvr ▸ rfl))⟩
  · have num : (n.toInt : ℚ) = n.toInt.natAbs := by
      rw [Nat.cast_natAbs, abs_of_nonneg (not_lt.mp hneg)]
    obtain ⟨hle, htie⟩ := roundedQuotient_nearest h grid
    rw [num]
    exact ⟨hle, fun heq hne => even_of (htie heq hne)⟩

/-- Settles O49: a dividend 0 is exact, any other is rounded once, to the nearest integer in units of the
last place. -/
theorem floatQuotientIsNearestEven : Obligations.FloatQuotientIsNearestEven := by
  intro n d hd u _
  by_cases hn : n = 0
  · have zero : fdiv32 n d = 0 := by rw [fdiv32, if_neg hd.not_ge, if_pos hn]
    rw [zero, hn]
    simp [floatValue, floatAbs, floatExponent, floatFraction]
  · exact fdiv32_nearerOrEven hn hd u

end Sys2Proof.Machine

/-! ### The invariant of the block, operation by operation

Each operation on the block keeps `Inv`; the clauses it does not name hold as they are, since they read
nothing it changes. -/

namespace Sys2Proof.Machine

section Operations
variable {s t : State}

/-! #### What the invariant says of a running command -/

theorem Inv.not_err_of_busy (h : Inv s) (hb : s.flags.busy = true) : s.flags.err = false := by
  simpa [hb] using h.atMostOne.2.1

/-- Only a shown error is fatal, and `BUSY` shows none. -/
theorem Inv.not_failed_of_busy (h : Inv s) (hb : s.flags.busy = true) : s.flags.failed = false := by
  by_contra hf
  have herr := (h.failedShown (by simpa using hf)).1
  simp [h.not_err_of_busy hb] at herr

theorem Inv.stage_idle (h : Inv s) (hb : s.flags.busy = false) : s.stage = .idle :=
  h.idleIffNotBusy.mpr hb

theorem Inv.stage_ne_idle (h : Inv s) (hb : s.flags.busy = true) : s.stage ≠ .idle := fun hi => by
  simp [h.idleIffNotBusy.mp hi] at hb

/-! #### Updates outside the engine -/

theorem Inv.withEnv (h : Inv s) (e : Env) : Inv { s with env := e } := { h with }

theorem Inv.setCmdovr (h : Inv s) : Inv s.setCmdovr := { h with }

theorem Inv.setLockviol (h : Inv s) : Inv s.setLockviol := { h with }

/-- A cell that is held by an agent other than 0, or free, is in order (43_lock.md R190). -/
theorem Inv.withLock (h : Inv s) {l : LockCell} (hl : l.held = false ↔ l.owner = 0) :
    Inv { s with lock := l } :=
  { h with lockCell := hl }

/-- The buffers are written only while no stage relies on them. -/
theorem Inv.withBufferWrite (h : Inv s) (off n : Nat) (v : Word) : Inv (bufferWrite s off n v) := by
  rcases bufferWrite_cases s off n v with ⟨-, -, e⟩ | ⟨-, hb, e⟩ | ⟨-, e⟩ <;> rw [e]
  · exact h.setCmdovr
  · have hi := h.stage_idle hb
    exact { h with
      memCanonical := Memory.wf_storeBytes h.memCanonical off v n
      calParsed := by simp [hi]
      calChecked := by simp [hi] }
  · exact h

/-! #### Resets -/

/-- A state with every item of 10_state.md R42 at its reset value, but for the lock cell. -/
theorem Inv.of_reset_items (hcal : s.cal = CalSet.zero) (hmem : s.mem = []) (hraw : s.raw = Raw.zero)
    (hres : s.res = Results.zero) (hflags : s.flags = Flags.zero) (hstage : s.stage = .idle)
    (hcause : s.cause = 0) (hlock : s.lock.held = false ↔ s.lock.owner = 0) : Inv s := by
  constructor <;> simp [hcal, hmem, hraw, hres, hflags, hstage, hcause, hlock, Memory.wf, Memory.wfFrom,
    Flags.zero, Stage.command]

theorem Inv.softReset (h : Inv s) : Inv s.softReset :=
  .of_reset_items rfl rfl rfl rfl rfl rfl rfl h.lockCell

theorem Inv.hardReset (s : State) : Inv s.hardReset :=
  .of_reset_items rfl rfl rfl rfl rfl rfl rfl (by simp [LockCell.zero])

/-! #### The ends of a command -/

/-- At `IDLE` no stage relies on the temporaries. -/
theorem Inv.forgetTemps (h : Inv s) (hi : s.stage = .idle) : Inv s.forgetTemps :=
  { h with
    calParsed := by simp [hi]
    calChecked := by simp [hi]
    rawChecked := by simp [hi]
    divisorNonZero := by simp [hi]
    zdenStages := by simp [hi, Stage.command] }

/-- An error entry from a state that is not `FAILED`; a fatal one while no set is loaded. -/
theorem Inv.raiseError (h : Inv s) {e : ErrorKind} (hf : s.flags.failed = false)
    (hr : e.raisedByBlock = true) (hc : e.fatal = true → s.flags.calValid = false) :
    Inv (s.raiseError e) :=
  { h with
    idleIffNotBusy := by simp
    atMostOne := by simp
    notReadyAndFailed := by
      cases he : e.fatal with
      | false => simp [hf, he]
      | true => simp [hc he]
    failedShown := by
      cases e <;> simp [hf, ErrorKind.fatal]
    causeClear := nofun
    causeCode := fun _ => ⟨e, hr, rfl⟩
    calStages := nofun, calParsed := nofun, calChecked := nofun, rawStages := nofun
    rawChecked := nofun, compStages := nofun, divisorNonZero := nofun, zdenStages := nofun }

theorem Inv.clearError (h : Inv s) (hf : s.flags.failed = false) : Inv s.clearError :=
  { h with
    atMostOne := by simp
    failedShown := by simp [hf]
    causeClear := fun _ => rfl
    causeCode := nofun }

/-- The end of a command that shows no error. -/
theorem Inv.finish (h : Inv s) (hb : s.flags.busy = true) : Inv s.finish :=
  { h with
    idleIffNotBusy := by simp
    atMostOne := by simp [h.not_err_of_busy hb]
    calStages := nofun, calParsed := nofun, calChecked := nofun, rawStages := nofun
    rawChecked := nofun, compStages := nofun, divisorNonZero := nofun, zdenStages := nofun }

/-! #### The starts of a command -/

theorem Inv.startCalld (h : Inv s) (hf : s.flags.failed = false) (hc : s.flags.calValid = false) :
    Inv (s.accept .calParse) :=
  { h with
    idleIffNotBusy := by simp
    atMostOne := by simp
    failedShown := by simp [hf]
    causeClear := fun _ => rfl
    causeCode := nofun
    calStages := fun _ => hc
    calParsed := nofun, calChecked := nofun, rawStages := nofun, rawChecked := nofun
    compStages := nofun, divisorNonZero := nofun, zdenStages := nofun }

theorem Inv.startRawld (h : Inv s) (hf : s.flags.failed = false) (hc : s.flags.calValid = true) :
    Inv s.startRawld :=
  { h with
    idleIffNotBusy := by simp
    atMostOne := by simp
    failedShown := by simp [hf]
    rawGood := nofun
    rawClear := fun _ => rfl
    rawNeedsCal := nofun
    causeClear := fun _ => rfl
    causeCode := nofun, calStages := nofun, calParsed := nofun, calChecked := nofun
    rawStages := fun _ => ⟨hc, rfl⟩
    rawChecked := nofun, compStages := nofun, divisorNonZero := nofun, zdenStages := nofun }

theorem Inv.startComp (h : Inv s) (hf : s.flags.failed = false) (hc : s.flags.calValid = true)
    (hr : s.flags.rawValid = true) : Inv s.startComp :=
  { h with
    idleIffNotBusy := by simp
    atMostOne := by simp
    failedShown := by simp [hf]
    resClear := fun _ => rfl
    compFlagsNeedCal := fun _ => hc
    causeClear := fun _ => rfl
    causeCode := nofun, calStages := nofun, calParsed := nofun, calChecked := nofun
    rawStages := nofun, rawChecked := nofun
    compStages := fun _ => ⟨hc, hr, rfl⟩
    divisorNonZero := nofun, zdenStages := nofun, zdenResult := nofun }

/-! #### The stages -/

theorem Inv.calParse (h : Inv s) (hb : s.flags.busy = true) (hs : s.stage = .calParse) :
    Inv (stageCalParse s) :=
  { h with
    idleIffNotBusy := by simp [stageCalParse, hb]
    calStages := fun _ => h.calStages (by rw [hs]; rfl)
    calParsed := fun _ => rfl
    calChecked := nofun, rawStages := nofun, rawChecked := nofun, compStages := nofun
    divisorNonZero := nofun, zdenStages := nofun }

theorem Inv.calCheck (h : Inv s) (hb : s.flags.busy = true) (hs : s.stage = .calCheck) :
    Inv (stageCalCheck s) := by
  have hc : s.flags.calValid = false := h.calStages (by rw [hs]; rfl)
  unfold stageCalCheck
  split
  · exact (h.raiseError (h.not_failed_of_busy hb) rfl fun _ => hc).forgetTemps rfl
  · next hinv =>
    exact { h with
      idleIffNotBusy := by simp [hb]
      calStages := fun _ => hc
      calParsed := fun _ => h.calParsed (.inl hs)
      calChecked := fun _ => eq_false_of_ne_true hinv
      rawStages := nofun, rawChecked := nofun, compStages := nofun, divisorNonZero := nofun
      zdenStages := nofun }

/-- `calbufAllFF` tests the first `n` bytes of `CALBUF`. -/
theorem calbufAllFF_iff {m : List Host.Cell} {n : Nat} :
    calbufAllFF m n = true ↔ ∀ i, i < n → calbuf m i = 0xFF#8 := by
  induction n with
  | zero => simp [calbufAllFF]
  | succ n ih => rw [calbufAllFF, Bool.and_eq_true, beq_iff_eq, ih, Nat.forall_lt_succ_right, and_comm]

theorem calPair_eq_ff {m : List Host.Cell} {k : Nat} (h : calPair m k = 0xFFFF#16) :
    calbuf m (2 * k) = 0xFF#8 ∧ calbuf m (2 * k + 1) = 0xFF#8 := by
  have bytes : (calbuf m (2 * k + 1) ++ calbuf m (2 * k)).toNat = 0xFFFF := congrArg BitVec.toNat h
  rw [BitVec.toNat_append, ← Nat.shiftLeft_add_eq_or_of_lt (BitVec.isLt _)] at bytes
  bv_omega

/-- Coefficient `k` of the parsed set is the `k`-th byte pair (40_calibration.md R122). -/
theorem parseCal_get (m : List Host.Cell) (k : Fin 12) : (parseCal m).get k = calPair m k := by
  fin_cases k <;> rfl

theorem CalSet.allFF_get (k : Fin 12) : CalSet.allFF.get k = 0xFFFF#16 := by
  revert k
  decide

/-- A block of which some byte is not `0xFF` parses to a set that is not all `0xFFFF`. -/
theorem parseCal_ne_allFF {m : List Host.Cell} (h : calbufAllFF m 24 = false) :
    parseCal m ≠ CalSet.allFF := fun heq => by
  have pair (k : Fin 12) : calPair m k = 0xFFFF#16 := by rw [← parseCal_get, heq, CalSet.allFF_get]
  have all : calbufAllFF m 24 = true := calbufAllFF_iff.mpr fun i hi => by
    obtain ⟨even, odd⟩ := calPair_eq_ff (pair ⟨i / 2, by omega⟩)
    rcases Nat.mod_two_eq_zero_or_one i with h2 | h2
    · rwa [show 2 * (i / 2) = i by omega] at even
    · rwa [show 2 * (i / 2) + 1 = i by omega] at odd
  simp [all] at h

/-- The set that `CAL_COMMIT` loads has passed the tests of `CAL_CHECK` (10_state.md R24). -/
theorem Inv.checked_set_good (h : Inv s) (hs : s.stage = .calCommit) :
    s.tmp.tcal.t1 ≠ 0 ∧ s.tmp.tcal.p1 ≠ 0 ∧ s.tmp.tcal ≠ CalSet.allFF := by
  have hvalid := h.calChecked hs
  simp only [calInvalid, Bool.or_eq_false_iff, beq_eq_false_iff_ne] at hvalid
  obtain ⟨⟨hff, ht1⟩, hp1⟩ := hvalid
  exact ⟨ht1, hp1, h.calParsed (.inr hs) ▸ parseCal_ne_allFF hff⟩

theorem Inv.calCommit (h : Inv s) (hb : s.flags.busy = true) (hs : s.stage = .calCommit) :
    Inv (stageCalCommit s) := by
  have loaded : Inv (State.finish
      { s with cal := s.tmp.tcal, flags := { s.flags with calValid := true } }) :=
    { h.finish hb with
      calGood := fun _ => h.checked_set_good hs
      calClear := nofun
      notReadyAndFailed := by simp [h.not_failed_of_busy hb]
      rawNeedsCal := fun _ => rfl
      compFlagsNeedCal := fun _ => rfl
      calStages := nofun, rawStages := nofun, compStages := nofun }
  exact loaded.forgetTemps rfl

theorem Inv.rawDecode (h : Inv s) (hb : s.flags.busy = true) (hs : s.stage = .rawDecode) :
    Inv (stageRawDecode s) :=
  { h with
    idleIffNotBusy := by simp [stageRawDecode, hb]
    calStages := nofun, calParsed := nofun, calChecked := nofun
    rawStages := fun _ => h.rawStages (by rw [hs]; rfl)
    rawChecked := nofun, compStages := nofun, divisorNonZero := nofun, zdenStages := nofun }

theorem Inv.rawCheck (h : Inv s) (hb : s.flags.busy = true) (hs : s.stage = .rawCheck) :
    Inv (stageRawCheck s) := by
  unfold stageRawCheck
  split
  · exact (h.raiseError (h.not_failed_of_busy hb) rfl (by simp [ErrorKind.fatal])).forgetTemps rfl
  · next hsent =>
    exact { h with
      idleIffNotBusy := by simp [hb]
      calStages := nofun, calParsed := nofun, calChecked := nofun
      rawStages := fun _ => h.rawStages (by rw [hs]; rfl)
      rawChecked := fun _ => by simpa using hsent
      compStages := nofun, divisorNonZero := nofun, zdenStages := nofun }

theorem Inv.rawCommit (h : Inv s) (hb : s.flags.busy = true) (hs : s.stage = .rawCommit) :
    Inv (stageRawCommit s) := by
  have loaded : Inv (State.finish
      { s with raw := ⟨s.tmp.tt, s.tmp.tp⟩, flags := { s.flags with rawValid := true } }) :=
    { h.finish hb with
      rawGood := fun _ => h.rawChecked hs
      rawClear := nofun
      rawNeedsCal := fun _ => (h.rawStages (by rw [hs]; rfl)).1
      rawStages := nofun, compStages := nofun }
  exact loaded.forgetTemps rfl

/-- `ZDEN` is set at no datapath stage but `FCVT`. -/
theorem Inv.zden_at_datapath (h : Inv s) (hs : s.stage.isDatapath = true) (hz : s.flags.zden = true) :
    s.stage = .fcvt ∧ s.tmp.p = 0 := by
  obtain ⟨hcomp, hne⟩ := Stage.isDatapath_iff.mp hs
  obtain ⟨hst, hp⟩ := h.zdenStages hz hcomp
  exact ⟨hst.resolve_right hne, hp⟩

theorem Inv.datapath (h : Inv s) (hb : s.flags.busy = true) (hs : s.stage.isDatapath = true) :
    Inv (stageDatapath s) := by
  obtain ⟨hcal, hraw, hres⟩ := h.compStages (Stage.isDatapath_iff.mp hs).1
  have hcomp : (stageDatapath s).stage.command = some .comp :=
    pipeStep_command s.compIn (p := s.pipe) hs
  exact { h with
    idleIffNotBusy := by
      rw [← Stage.command_eq_none, hcomp]
      simp [stageDatapath, hb]
    compFlagsNeedCal := fun _ => hcal
    calStages := by simp [hcomp]
    calParsed := by rintro (hst | hst) <;> simp [hst, Stage.command] at hcomp
    calChecked := fun hst => by simp [hst, Stage.command] at hcomp
    rawStages := by simp [hcomp]
    rawChecked := fun hst => by simp [hst, Stage.command] at hcomp
    compStages := fun _ => ⟨hcal, hraw, hres⟩
    divisorNonZero := pipeStep_divisor s.compIn (p := s.pipe) h.divisorNonZero
    zdenStages := fun hz _ => pipeStep_zden s.compIn (p := s.pipe) (h.zden_at_datapath hs) hz
    zdenResult := fun _ hr => by simp [stageDatapath, hres] at hr }

theorem Inv.compCommit (h : Inv s) (hb : s.flags.busy = true) (hs : s.stage = .compCommit) :
    Inv (stageCompCommit s) := by
  have hcomp : s.stage.command = some .comp := by rw [hs]; rfl
  have committed : Inv (State.finish
      { s with
        res := s.tmp.results
        raw := Raw.zero
        flags := { s.flags with resValid := true, rawValid := false } }) :=
    { h.finish hb with
      rawGood := nofun
      rawClear := fun _ => rfl
      rawNeedsCal := nofun, resClear := nofun
      compFlagsNeedCal := fun _ => (h.compStages hcomp).1
      rawStages := nofun, compStages := nofun
      zdenResult := fun hz _ => (h.zdenStages hz hcomp).2 }
  exact committed.forgetTemps rfl

/-- Every stage of the sequencer keeps the invariant. -/
theorem Inv.of_sequencerStep (h : Inv s) (hb : s.flags.busy = true) (hq : sequencerStep s = .next t) :
    Inv t := by
  rcases sequencerStep_next hq with ⟨hs, rfl⟩ | ⟨hs, rfl⟩ | ⟨hs, rfl⟩ | ⟨hs, rfl⟩ | ⟨hs, rfl⟩ | ⟨hs, rfl⟩ |
    ⟨hs, rfl⟩ | ⟨hs, rfl⟩
  · exact h.calParse hb hs
  · exact h.calCheck hb hs
  · exact h.calCommit hb hs
  · exact h.rawDecode hb hs
  · exact h.rawCheck hb hs
  · exact h.rawCommit hb hs
  · exact h.datapath hb hs
  · exact h.compCommit hb hs

/-- Every command word keeps the invariant. -/
theorem Inv.of_commandWrite (h : Inv s) {w : Word} (hw : commandWrite w s = .next t) : Inv t := by
  refine commandWrite_keeps (P := Inv) (fun _ _ hs hb hq => hs.of_sequencerStep hb hq)
    (hOvr := fun _ hs _ => hs.setCmdovr) (hViol := fun _ hs => hs.setLockviol)
    (hTry := fun _ a hs ha _ => hs.withLock ?_) (hRel := fun _ _ hs _ _ => hs.withLock ?_)
    (hSoft := fun _ hs => hs.softReset)
    (hRaise := fun _ e hs _ hf hr he => hs.raiseError hf hr fun hfatal => ?_)
    (hClear := fun _ hs _ hf => hs.clearError hf) (hCal := fun _ hs _ hf hc => hs.startCalld hf hc)
    (hRaw := fun _ hs _ hf hc => hs.startRawld hf hc)
    (hComp := fun _ hs _ hf hc hr => hs.startComp hf hc hr) h hw
  · simpa [agentOk] using ha
  · simp [LockCell.zero]
  · rw [he] at hfatal; cases hfatal

end Operations

/-- Settles O9: every operation on the block keeps the invariant, and a step is made of these. -/
theorem stepKeepsInvariant : Obligations.StepKeepsInvariant := fun _ _ hs h =>
  step_keeps (P := Inv) (fun _ e hs => hs.withEnv e) (fun _ _ _ hs hw => hs.of_commandWrite hw)
    (fun _ off n v hs => hs.withBufferWrite off n v) (fun _ _ hs hb hq => hs.of_sequencerStep hb hq)
    (fun s _ => .hardReset s) hs h

/-- Settles O10: the reset state has every item at its reset value. -/
theorem resetMeetsInvariant : Obligations.ResetMeetsInvariant :=
  .of_reset_items rfl rfl rfl rfl rfl rfl rfl (by decide)

end Sys2Proof.Machine

/-! ### From a state with the invariant no step stops -/

namespace Sys2Proof.Machine

/-- The outcome is a next state: no fault and no refusal. -/
def Answers (o : Host.Outcome State Fault Refusal) : Prop := ∃ t, o = .next t

section Answering
variable {s : State}

theorem answers_next (s : State) : Answers (.next s) := ⟨s, rfl⟩

/-- The gate answers where what it guards does. -/
theorem engineGate_answers {k : Host.Outcome State Fault Refusal}
    (hk : s.flags.busy = false → s.flags.failed = false → Answers k) : Answers (engineGate s k) := by
  rcases engineGate_cases s k with ⟨-, e⟩ | ⟨-, -, e⟩ | ⟨hb, hf, e⟩ <;> rw [e]
  · exact answers_next _
  · exact answers_next _
  · exact hk hb hf

theorem Inv.sequencerTurn_answers (h : Inv s) : Answers (sequencerTurn s) := by
  cases hb : s.flags.busy with
  | false => exact ⟨s, sequencerTurn_idle hb⟩
  | true => exact ⟨_, (sequencerTurn_busy hb).trans (sequencerStep_eq (h.stage_ne_idle hb))⟩

theorem Inv.of_sequencerTurn (h : Inv s) {t : State} (ht : sequencerTurn s = .next t) : Inv t := by
  cases hb : s.flags.busy with
  | false => rw [sequencerTurn_idle hb] at ht; cases ht; exact h
  | true => exact h.of_sequencerStep hb ((sequencerTurn_busy hb).symm.trans ht)

theorem Inv.sequencerTurns_answers (h : Inv s) (n : Nat) : Answers (sequencerTurns n s) := by
  induction n generalizing s with
  | zero => exact answers_next s
  | succ n ih =>
    obtain ⟨t, ht⟩ := h.sequencerTurn_answers
    rw [sequencerTurns_succ n ht]
    exact ih (h.of_sequencerTurn ht)

theorem Inv.launch_answers (h : Inv s) : Answers (launch s) := by
  cases ha : s.cfg.stageAtomic with
  | false => exact ⟨s, launch_staged ha⟩
  | true => rw [launch_atomic ha]; exact h.sequencerTurns_answers maxStages

/-- Every command answers: its accept refuses, or starts from a state with the invariant. -/
theorem Inv.exec_answers (h : Inv s) (i : Instr) : Answers (exec i s) := by
  cases i with
  | nop => exact answers_next s
  | calld =>
    refine engineGate_answers fun _ hf => ?_
    unfold acceptCalld
    split
    · exact answers_next _
    · next hc => exact (h.startCalld hf (eq_false_of_ne_true hc)).launch_answers
  | rawld =>
    refine engineGate_answers fun _ hf => ?_
    unfold acceptRawld
    split
    · next hc => exact (h.startRawld hf hc).launch_answers
    · exact answers_next _
  | comp =>
    refine engineGate_answers fun _ hf => ?_
    unfold acceptComp
    split_ifs with hc hr
    · exact answers_next _
    · exact answers_next _
    · exact (h.startComp hf (by simpa using hc) (by simpa using hr)).launch_answers
  | clrerr => exact engineGate_answers fun _ _ => answers_next _
  | sreset => exact answers_next _
  | lockTry a => simp only [exec, execLockTry]; split <;> exact answers_next _
  | lockRel a => simp only [exec, execLockRel]; split <;> exact answers_next _

theorem Inv.commandWrite_answers (h : Inv s) (w : Word) : Answers (commandWrite w s) := by
  unfold commandWrite
  split
  · exact h.exec_answers _
  · exact answers_next _
  · exact engineGate_answers fun _ _ => answers_next _
  · exact engineGate_answers fun _ _ => answers_next _

theorem Inv.hostAccess_answers (h : Inv s) (a : Access) : Answers (hostAccess a s) := by
  rcases hostAccess_cases a s with ⟨r, e⟩ | ⟨v, -, e⟩ | ⟨off, n, v, -, -, e⟩ <;> rw [e]
  · exact answers_next _
  · exact (h.withEnv _).commandWrite_answers v
  · exact answers_next _

theorem Inv.performLine_answers (h : Inv s) (k : Nat) (th : Thread) (l : Line) (rest : List Line) :
    Answers (performLine k th l rest s) := by
  unfold performLine
  split
  · exact answers_next _
  · split
    · exact answers_next _
    · next a _ =>
      obtain ⟨t, ht⟩ := h.hostAccess_answers a
      rw [ht]
      exact answers_next _

theorem Inv.perform_answers (h : Inv s) (e : Event) : Answers (perform e s) := by
  cases e with
  | sequencer => exact h.sequencerTurn_answers
  | access a => exact h.hostAccess_answers a
  | address a =>
    rw [perform]
    rcases addressAccess_cases a s with ⟨b, -, e⟩ | ⟨-, e⟩ | ⟨-, e⟩ <;> rw [e]
    · exact h.hostAccess_answers b
    · exact answers_next _
    · exact answers_next _
  | thread k =>
    rw [perform, threadTurn]
    split
    · exact answers_next _
    · split
      · exact answers_next _
      · exact h.performLine_answers _ _ _ _
  | bus a op => exact answers_next _
  | hardReset => exact answers_next _

end Answering

/-- Settles O8: the one fault needs `BUSY = 1` with `STAGE = IDLE`, which the invariant excludes, in the
stages behind an atomic accept too. -/
theorem stepNeverStops : Obligations.StepNeverStops := fun s h => by
  rcases step_cases s with ⟨-, e⟩ | ⟨v, es, o, -, e⟩ <;> rw [e]
  · exact h.sequencerTurn_answers
  · exact (h.withEnv _).perform_answers v

/-! ### What a step does to the block, told by its event

A step is a hardware reset, the write of the command word it delivers, or neither; a command word comes to
one of few operations. -/

/-- The operation on the block that the event `e` comes to, where it delivers the command word `c`: a
`BlockOp` with the word and the event it belongs to. -/
inductive EventOp (c : Option Word) (e : Option Event) (s : State) : State → Prop where
  | none : EventOp c e s s
  | command {w : Word} {t : State} (hc : c = some w) (h : commandWrite w s = .next t) : EventOp c e s t
  | buffer (off n : Nat) (v : Word) : EventOp c e s (bufferWrite s off n v)
  | stage {t : State} (hb : s.flags.busy = true) (h : sequencerStep s = .next t) : EventOp c e s t
  | hardReset (he : e = some .hardReset) : EventOp c e s s.hardReset

/-- `t` follows from `s` by the operation of one event; the fields outside the block may change before it and
after it. -/
def OneEventOp (c : Option Word) (e : Option Event) (s t : State) : Prop :=
  ∃ (a b : Env) (u : State), EventOp c e { s with env := a } u ∧ t = { u with env := b }

section Events
variable {c : Option Word} {e : Option Event} {s t : State}

theorem oneEventOp_of_env (s : State) (a : Env) : OneEventOp c e s { s with env := a } :=
  ⟨s.env, a, s, .none, rfl⟩

theorem OneEventOp.then_env (h : OneEventOp c e s t) (b : Env) : OneEventOp c e s { t with env := b } := by
  obtain ⟨a, -, u, hu, rfl⟩ := h
  exact ⟨a, b, u, hu, rfl⟩

theorem hostAccess_oneEventOp {a : Access} (h : hostAccess a s = .next t) :
    OneEventOp a.commandWord e s t := by
  rcases hostAccess_cases a s with ⟨r, hr⟩ | ⟨v, rfl, hw⟩ | ⟨off, n, v, -, -, hw⟩
  · cases hr.symm.trans h
    exact oneEventOp_of_env s _
  · exact ⟨_, t.env, t, .command rfl (hw.symm.trans h), rfl⟩
  · cases hw.symm.trans h
    exact ⟨_, _, _, .buffer off n v, rfl⟩

theorem performLine_oneEventOp {k : Nat} {th : Thread} {l : Line} {rest : List Line}
    (h : performLine k th l rest s = .next t) :
    OneEventOp (l.access.bind Access.commandWord) e s t := by
  unfold performLine at h
  split at h
  · cases h
    exact oneEventOp_of_env s _
  · split at h
    · cases h
      exact oneEventOp_of_env s _
    · next a ha =>
      split at h
      · next u hu =>
        cases h
        rw [ha]
        exact (hostAccess_oneEventOp hu).then_env _
      · cases h
      · cases h

theorem sequencerTurn_oneEventOp (h : sequencerTurn s = .next t) : OneEventOp c e s t := by
  cases hb : s.flags.busy with
  | false =>
    cases (sequencerTurn_idle hb).symm.trans h
    exact oneEventOp_of_env s _
  | true => exact ⟨s.env, t.env, t, .stage hb ((sequencerTurn_busy hb).symm.trans h), rfl⟩

theorem perform_oneEventOp {v : Event} (h : perform v s = .next t) :
    OneEventOp ((v.accessIn s).bind Access.commandWord) (some v) s t := by
  cases v with
  | sequencer => exact sequencerTurn_oneEventOp h
  | access a => exact hostAccess_oneEventOp h
  | address a =>
    rw [perform] at h
    rcases addressAccess_cases a s with ⟨b, hb, hw⟩ | ⟨-, hr⟩ | ⟨-, hr⟩
    · rw [Event.accessIn, hb]
      exact hostAccess_oneEventOp (hw.symm.trans h)
    · cases hr.symm.trans h
      exact oneEventOp_of_env s _
    · cases hr.symm.trans h
      exact oneEventOp_of_env s _
  | thread k =>
    simp only [perform, threadTurn, Event.accessIn] at h ⊢
    split at h
    · cases h
      exact oneEventOp_of_env s _
    · next th _ =>
      split at h
      · cases h
        exact oneEventOp_of_env s _
      · next l rest hl =>
        simp only [hl]
        exact performLine_oneEventOp h
  | bus a op =>
    cases h
    exact oneEventOp_of_env s _
  | hardReset =>
    cases h
    exact ⟨_, _, _, .hardReset rfl, rfl⟩

/-- What a step does to the block is the operation of its event. -/
theorem step_oneEventOp (h : step s = .next t) : OneEventOp s.nextCommand s.nextEvent s t := by
  rcases step_cases s with ⟨-, hq⟩ | ⟨v, es, o, hv, hp⟩
  · exact sequencerTurn_oneEventOp (hq.symm.trans h)
  · have op := perform_oneEventOp (hp.symm.trans h)
    rw [State.nextCommand, State.nextAccess, hv]
    exact op

end Events

/-! ### What a command word does -/

/-- The state a staged command starts from, where its accept does not refuse. -/
inductive CommandStart (w : Word) (s : State) : State → Prop where
  | calld (hw : decode w = .ok .calld) (hc : s.flags.calValid = false) : CommandStart w s (s.accept .calParse)
  | rawld (hw : decode w = .ok .rawld) (hc : s.flags.calValid = true) : CommandStart w s s.startRawld
  | comp (hw : decode w = .ok .comp) (hc : s.flags.calValid = true) (hr : s.flags.rawValid = true) :
    CommandStart w s s.startComp

/-- The operation a command word comes to (30_encoding.md R99). -/
inductive CommandOp (w : Word) (s : State) : State → Prop where
  | none : CommandOp w s s
  | dropped (hb : s.flags.busy = true) : CommandOp w s s.setCmdovr
  | violation : CommandOp w s s.setLockviol
  | lock (l : LockCell) (hw : ∃ a, decode w = .ok (.lockTry a) ∨ decode w = .ok (.lockRel a)) :
    CommandOp w s { s with lock := l }
  | softReset (hw : decode w = .ok .sreset) : CommandOp w s s.softReset
  | clearError (hw : decode w = .ok .clrerr) : CommandOp w s s.clearError
  | refused (e : ErrorKind) (hf : e.fatal = false) : CommandOp w s (s.raiseError e)
  | started {u t : State} (hf : s.flags.failed = false) (hu : CommandStart w s u) (h : launch u = .next t) :
    CommandOp w s t

section Commands
variable {w : Word} {s t : State}

theorem engineGate_op {k : Host.Outcome State Fault Refusal}
    (hk : s.flags.failed = false → k = .next t → CommandOp w s t) (h : engineGate s k = .next t) :
    CommandOp w s t := by
  rcases engineGate_cases s k with ⟨hb, e⟩ | ⟨-, -, e⟩ | ⟨-, hf, e⟩ <;> rw [e] at h
  · cases h; exact .dropped hb
  · cases h; exact .none
  · exact hk hf h

theorem malformedLock_op (h : malformedLock s = .next t) : CommandOp w s t := by
  cases h
  exact .violation

theorem illegalCommand_op (h : illegalCommand s = .next t) : CommandOp w s t :=
  engineGate_op (fun _ hk => by cases hk; exact .refused _ rfl) h

theorem exec_op {i : Instr} (hw : decode w = .ok i) (h : exec i s = .next t) : CommandOp w s t := by
  cases i with
  | nop => cases h; exact .none
  | calld =>
    refine engineGate_op (fun hf hk => ?_) h
    rcases acceptCalld_next hk with ⟨-, rfl⟩ | ⟨hc, hl⟩
    · exact .refused _ rfl
    · exact .started hf (.calld hw hc) hl
  | rawld =>
    refine engineGate_op (fun hf hk => ?_) h
    rcases acceptRawld_next hk with ⟨-, rfl⟩ | ⟨hc, hl⟩
    · exact .refused _ rfl
    · exact .started hf (.rawld hw hc) hl
  | comp =>
    refine engineGate_op (fun hf hk => ?_) h
    rcases acceptComp_next hk with ⟨-, rfl⟩ | ⟨-, -, rfl⟩ | ⟨hc, hr, hl⟩
    · exact .refused _ rfl
    · exact .refused _ rfl
    · exact .started hf (.comp hw hc hr) hl
  | clrerr => exact engineGate_op (fun _ hk => by cases hk; exact .clearError hw) h
  | sreset => cases h; exact .softReset hw
  | lockTry a =>
    simp only [exec, execLockTry, State.tryLock] at h
    split_ifs at h
    · cases h; exact .none
    · cases h; exact .lock _ ⟨a, .inl hw⟩
    · exact malformedLock_op h
  | lockRel a =>
    simp only [exec, execLockRel, State.releaseLock] at h
    split_ifs at h
    · cases h; exact .lock _ ⟨a, .inr hw⟩
    · cases h; exact .violation
    · exact malformedLock_op h

theorem commandWrite_op (h : commandWrite w s = .next t) : CommandOp w s t := by
  unfold commandWrite at h
  split at h
  · next i hw => exact exec_op hw h
  · exact malformedLock_op h
  · exact illegalCommand_op h
  · exact illegalCommand_op h

end Commands

/-! ### The sticky flags -/

/-- `CMDOVR` and `LOCKVIOL`, where they are set in `s`, are set in `t` (10_state.md R34). -/
def DiagnosticsStay (s t : State) : Prop :=
  (s.flags.cmdovr = true → t.flags.cmdovr = true) ∧ (s.flags.lockviol = true → t.flags.lockviol = true)

/-- `OVF`, where it is set in `s`, is set in `t` (10_state.md R33). -/
def OvfStays (s t : State) : Prop := s.flags.ovf = true → t.flags.ovf = true

theorem DiagnosticsStay.not_cleared {s t : State} (h : DiagnosticsStay s t) :
    ¬(s.flags.cmdovr = true ∧ t.flags.cmdovr = false ∨
      s.flags.lockviol = true ∧ t.flags.lockviol = false) := by
  rintro (⟨hs, ht⟩ | ⟨hs, ht⟩)
  · simp [h.1 hs] at ht
  · simp [h.2 hs] at ht

theorem OvfStays.not_cleared {s t : State} (h : OvfStays s t) (hs : s.flags.ovf = true) :
    t.flags.ovf ≠ false := by simp [h hs]

section Sticky
variable {w : Word} {s t u : State}

/-- No primitive clears `OVF` (00_scope.md R14). -/
theorem pipeStep_ovf (c : CompIn) (p : Pipe) (h : p.ovf = true) : (pipeStep c p).ovf = true := by
  cases hs : p.stage with
  | pS7 => simp only [pipeStep, hs, pipePS7]; split <;> exact h
  | _ => simp [pipeStep, hs, h, pipeTS1, pipeTS2, pipeTS3, pipeTS4, pipePS1, pipePS2, pipePS3, pipePS4,
      pipePS5, pipePS6, pipePS8, pipePS9, pipePS10, pipePS11, pipePS12, pipeFcvt]

/-- A stage leaves `CMDOVR` and `LOCKVIOL` as they are and does not clear `OVF`. -/
theorem sequencerStep_sticky (h : sequencerStep s = .next t) :
    t.flags.cmdovr = s.flags.cmdovr ∧ t.flags.lockviol = s.flags.lockviol ∧ OvfStays s t := by
  rcases sequencerStep_next h with ⟨-, rfl⟩ | ⟨-, rfl⟩ | ⟨-, rfl⟩ | ⟨-, rfl⟩ | ⟨-, rfl⟩ | ⟨-, rfl⟩ |
    ⟨-, rfl⟩ | ⟨-, rfl⟩
  · exact ⟨rfl, rfl, id⟩
  · unfold stageCalCheck
    split <;> exact ⟨rfl, rfl, id⟩
  · exact ⟨rfl, rfl, id⟩
  · exact ⟨rfl, rfl, id⟩
  · unfold stageRawCheck
    split <;> exact ⟨rfl, rfl, id⟩
  · exact ⟨rfl, rfl, id⟩
  · exact ⟨rfl, rfl, pipeStep_ovf s.compIn s.pipe⟩
  · exact ⟨rfl, rfl, id⟩

theorem sequencerStep_keeps_sticky (s t : State) (hs : DiagnosticsStay u s ∧ OvfStays u s)
    (h : sequencerStep s = .next t) : DiagnosticsStay u t ∧ OvfStays u t := by
  obtain ⟨⟨hcmd, hlock⟩, hovf⟩ := hs
  obtain ⟨hcmd', hlock', hovf'⟩ := sequencerStep_sticky h
  exact ⟨⟨hcmd' ▸ hcmd, hlock' ▸ hlock⟩, hovf' ∘ hovf⟩

/-- The stages behind an atomic accept leave the sticky flags set. -/
theorem launch_sticky (h : launch u = .next t) : DiagnosticsStay u t ∧ OvfStays u t :=
  launch_keeps (P := fun v => DiagnosticsStay u v ∧ OvfStays u v)
    (fun s t hs _ hq => sequencerStep_keeps_sticky s t hs hq) ⟨⟨id, id⟩, id⟩ h

/-- The command words that clear `CMDOVR` or `LOCKVIOL` are `CLRERR` and `SRESET`. -/
theorem CommandOp.diagnosticsStay (h : CommandOp w s t) :
    DiagnosticsStay s t ∨ decode w = .ok .clrerr ∨ decode w = .ok .sreset := by
  cases h with
  | none => exact .inl ⟨id, id⟩
  | dropped _ => exact .inl ⟨fun _ => rfl, id⟩
  | violation => exact .inl ⟨id, fun _ => rfl⟩
  | lock _ _ => exact .inl ⟨id, id⟩
  | softReset hw => exact .inr (.inr hw)
  | clearError hw => exact .inr (.inl hw)
  | refused _ _ => exact .inl ⟨id, id⟩
  | started _ hu hl =>
    obtain ⟨hstay, -⟩ := launch_sticky hl
    cases hu <;> exact .inl hstay

/-- The command words that clear `OVF` are `COMP` and `SRESET`. -/
theorem CommandOp.ovfStays (h : CommandOp w s t) :
    OvfStays s t ∨ decode w = .ok .comp ∨ decode w = .ok .sreset := by
  cases h with
  | none => exact .inl id
  | dropped _ => exact .inl id
  | violation => exact .inl id
  | lock _ _ => exact .inl id
  | softReset hw => exact .inr (.inr hw)
  | clearError _ => exact .inl id
  | refused _ _ => exact .inl id
  | started _ hu hl =>
    obtain ⟨-, hstay⟩ := launch_sticky hl
    cases hu with
    | calld _ _ => exact .inl hstay
    | rawld _ _ => exact .inl hstay
    | comp hw _ _ => exact .inr (.inl hw)

theorem bufferWrite_sticky (s : State) (off n : Nat) (v : Word) :
    DiagnosticsStay s (bufferWrite s off n v) ∧ OvfStays s (bufferWrite s off n v) := by
  rcases bufferWrite_cases s off n v with ⟨-, -, e⟩ | ⟨-, -, e⟩ | ⟨-, e⟩ <;> rw [e]
  · exact ⟨⟨fun _ => rfl, id⟩, id⟩
  · exact ⟨⟨id, id⟩, id⟩
  · exact ⟨⟨id, id⟩, id⟩

/-- The sticky flags stay, or the step was a hardware reset or the write of a command word. -/
theorem step_sticky (h : step s = .next t) :
    (DiagnosticsStay s t ∧ OvfStays s t) ∨ s.nextEvent = some .hardReset ∨
      ∃ w, s.nextCommand = some w ∧
        (DiagnosticsStay s t ∨ decode w = .ok .clrerr ∨ decode w = .ok .sreset) ∧
        (OvfStays s t ∨ decode w = .ok .comp ∨ decode w = .ok .sreset) := by
  obtain ⟨a, b, u, hu, rfl⟩ := step_oneEventOp h
  cases hu with
  | none => exact .inl ⟨⟨id, id⟩, id⟩
  | command hc hw =>
    have op := commandWrite_op hw
    exact .inr (.inr ⟨_, hc, op.diagnosticsStay, op.ovfStays⟩)
  | buffer off n v => exact .inl (bufferWrite_sticky { s with env := a } off n v)
  | stage _ hq =>
    exact .inl (sequencerStep_keeps_sticky (u := { s with env := a }) _ u ⟨⟨id, id⟩, id⟩ hq)
  | hardReset he => exact .inr (.inl he)

end Sticky

/-- Settles O27: of the operations a step can come to, those that clear a sticky flag are the ones named. -/
theorem stickyFlagsStay : Obligations.StickyFlagsStay := by
  intro s t h
  rcases step_sticky h with ⟨hdiag, hovf⟩ | he | ⟨w, hw, hdiag, hovf⟩
  · exact ⟨fun hc => absurd hc hdiag.not_cleared, fun hs ht => absurd ht (hovf.not_cleared hs)⟩
  · exact ⟨fun _ => .inl he, fun _ _ => .inl he⟩
  · exact ⟨fun hc => .inr ⟨w, hw, hdiag.resolve_left fun stay => stay.not_cleared hc⟩,
      fun hs ht => .inr ⟨w, hw, hovf.resolve_left fun stay => stay.not_cleared hs ht⟩⟩

/-! ### The coefficient file with a set loaded -/

/-- The set `c` is loaded, in a state with the invariant. -/
def Holds (c : CalSet) (s : State) : Prop := Inv s ∧ s.cal = c ∧ s.flags.calValid = true

section Coefficients
variable {c : CalSet} {w : Word} {s t : State}

/-- `CAL_COMMIT`, the one stage that writes the coefficient file, does not run while a set is loaded. -/
theorem Holds.of_sequencerStep (h : Holds c s) (hb : s.flags.busy = true) (hq : sequencerStep s = .next t) :
    Holds c t := by
  obtain ⟨hinv, hcal, hvalid⟩ := h
  refine ⟨hinv.of_sequencerStep hb hq, ?_⟩
  have no_calld : s.stage.command ≠ some .calld := fun hs => by simp [hinv.calStages hs] at hvalid
  rcases sequencerStep_next hq with ⟨hs, -⟩ | ⟨hs, -⟩ | ⟨hs, -⟩ | ⟨-, rfl⟩ | ⟨-, rfl⟩ | ⟨-, rfl⟩ |
    ⟨-, rfl⟩ | ⟨-, rfl⟩
  · simp [hs, Stage.command] at no_calld
  · simp [hs, Stage.command] at no_calld
  · simp [hs, Stage.command] at no_calld
  · exact ⟨hcal, hvalid⟩
  · unfold stageRawCheck
    split <;> exact ⟨hcal, hvalid⟩
  · exact ⟨hcal, hvalid⟩
  · exact ⟨hcal, hvalid⟩
  · exact ⟨hcal, hvalid⟩

theorem Holds.of_launch (h : Holds c s) (hl : launch s = .next t) : Holds c t :=
  launch_keeps (P := Holds c) (fun _ _ hs hb hq => hs.of_sequencerStep hb hq) h hl

/-- With a set loaded the one command word that touches the coefficient file is `SRESET`. -/
theorem Holds.of_commandOp (h : Holds c s) (hw : CommandOp w s t) :
    (t.cal = c ∧ t.flags.calValid = true) ∨ decode w = .ok .sreset := by
  obtain ⟨hinv, hcal, hvalid⟩ := h
  cases hw with
  | none => exact .inl ⟨hcal, hvalid⟩
  | dropped _ => exact .inl ⟨hcal, hvalid⟩
  | violation => exact .inl ⟨hcal, hvalid⟩
  | lock _ _ => exact .inl ⟨hcal, hvalid⟩
  | softReset hw => exact .inr hw
  | clearError _ => exact .inl ⟨hcal, hvalid⟩
  | refused _ _ => exact .inl ⟨hcal, hvalid⟩
  | started hf hu hl =>
    cases hu with
    | calld _ hc => simp [hvalid] at hc
    | rawld _ hc =>
      obtain ⟨-, hcal', hvalid'⟩ := Holds.of_launch ⟨hinv.startRawld hf hc, hcal, hvalid⟩ hl
      exact .inl ⟨hcal', hvalid'⟩
    | comp _ hc hr =>
      obtain ⟨-, hcal', hvalid'⟩ := Holds.of_launch ⟨hinv.startComp hf hc hr, hcal, hvalid⟩ hl
      exact .inl ⟨hcal', hvalid'⟩

theorem Holds.of_bufferWrite (h : Holds c s) (off n : Nat) (v : Word) :
    (bufferWrite s off n v).cal = c ∧ (bufferWrite s off n v).flags.calValid = true := by
  obtain ⟨-, hcal, hvalid⟩ := h
  rcases bufferWrite_cases s off n v with ⟨-, -, e⟩ | ⟨-, -, e⟩ | ⟨-, e⟩ <;> rw [e] <;>
    exact ⟨hcal, hvalid⟩

end Coefficients

/-- Settles O28: `CAL_COMMIT` writes the coefficient file while no set is loaded, and nothing else does but
the resets. -/
theorem calibrationSetIsImmutable : Obligations.CalibrationSetIsImmutable := by
  intro s t hinv hvalid h
  obtain ⟨a, b, u, hu, rfl⟩ := step_oneEventOp h
  have hold : Holds s.cal { s with env := a } := ⟨hinv.withEnv a, rfl, hvalid⟩
  cases hu with
  | none => exact .inl ⟨rfl, hvalid⟩
  | command hc hw =>
    obtain hsame | hreset := hold.of_commandOp (commandWrite_op hw)
    · exact .inl hsame
    · exact .inr (.inr ⟨_, hc, hreset⟩)
  | buffer off n v => exact .inl (hold.of_bufferWrite off n v)
  | stage hb hq => exact .inl (hold.of_sequencerStep hb hq).2
  | hardReset he => exact .inr (.inl he)

end Sys2Proof.Machine

/-! ### The stages of the datapath in the spec's primitives -/

namespace Sys2Proof.Machine

section Stages
variable {s : State}

/-- A coefficient as the datapath reads it (10_state.md R21). -/
theorem coeff_eq (c : CompIn) (k : Fin 12) :
    c.coeff k = .pure (if k ∈ c.cfg.calUnsigned then (c.cal.get k).zeroExtend 64
      else (c.cal.get k).signExtend 64) := by
  simp [CompIn.coeff, coeffOperand, isUnsigned]

theorem sequencerStep_datapath (h : s.stage.isDatapath = true) :
    sequencerStep s = .next (stageDatapath s) := by
  have hi : s.stage ≠ .idle := by rintro hi; simp [hi, Stage.isDatapath, Stage.command] at h
  rcases sequencerStep_next (sequencerStep_eq hi) with ⟨hs, -⟩ | ⟨hs, -⟩ | ⟨hs, -⟩ | ⟨hs, -⟩ | ⟨hs, -⟩ |
    ⟨hs, -⟩ | ⟨-, e⟩ | ⟨hs, -⟩
  iterate 6 rw [hs] at h; cases h
  · rw [sequencerStep_eq hi, e]
  · rw [hs] at h; cases h

/-- A datapath stage that writes the temporaries `tm`, adds the overflow `o` and goes to `st`. -/
theorem sequencerStep_afterStage {tm : Temps} {o : Bool} {st : Stage} (h : s.stage.isDatapath = true)
    (hp : pipeStep s.compIn s.pipe = ⟨st, tm, s.flags.zden, s.flags.ovf || o⟩) :
    sequencerStep s = .next (s.afterStage tm o st) := by
  rw [sequencerStep_datapath h, stageDatapath, hp]
  rfl

end Stages

/-! The value and the overflow of each primitive on operands that carry an overflow. -/

@[simp] theorem Flagged.add_val (x y : Flagged) : (x.add y).val = (add64 x.val y.val).val := rfl
@[simp] theorem Flagged.add_ovf (x y : Flagged) :
    (x.add y).ovf = (x.ovf || y.ovf || (add64 x.val y.val).ovf) := rfl
@[simp] theorem Flagged.sub_val (x y : Flagged) : (x.sub y).val = (sub64 x.val y.val).val := rfl
@[simp] theorem Flagged.sub_ovf (x y : Flagged) :
    (x.sub y).ovf = (x.ovf || y.ovf || (sub64 x.val y.val).ovf) := rfl
@[simp] theorem Flagged.mul_val (x y : Flagged) : (x.mul y).val = (mul64 x.val y.val).val := rfl
@[simp] theorem Flagged.mul_ovf (x y : Flagged) :
    (x.mul y).ovf = (x.ovf || y.ovf || (mul64 x.val y.val).ovf) := rfl
@[simp] theorem Flagged.sdiv_val (x y : Flagged) : (x.sdiv y).val = (sdiv64 x.val y.val).val := rfl
@[simp] theorem Flagged.sdiv_ovf (x y : Flagged) :
    (x.sdiv y).ovf = (x.ovf || y.ovf || (sdiv64 x.val y.val).ovf) := rfl
@[simp] theorem Flagged.shl_val (x : Flagged) (k : Nat) : (x.shl k).val = (shl64 x.val k).val := rfl
@[simp] theorem Flagged.sra_val (x : Flagged) (k : Nat) : (x.sra k).val = (sra64 x.val k).val := rfl
@[simp] theorem Flagged.shl_ovf (x : Flagged) (k : Nat) : (x.shl k).ovf = (x.ovf || (shl64 x.val k).ovf) := rfl
@[simp] theorem Flagged.sra_ovf (x : Flagged) (k : Nat) : (x.sra k).ovf = x.ovf := Bool.or_false _

/-! What the datapath reads of the state (42_compensation.md R140, R141). -/

@[simp] theorem compIn_rawT (s : State) : s.compIn.rawT = .pure (s.raw.t.zeroExtend 64) := rfl
@[simp] theorem compIn_rawP (s : State) : s.compIn.rawP = .pure (s.raw.p.zeroExtend 64) := rfl
@[simp] theorem compIn_cfg (s : State) : s.compIn.cfg = s.cfg := rfl

/-- Settles O37: each stage is its right-hand side, evaluated innermost first. -/
theorem temperatureStages : Obligations.TemperatureStages := by
  intro s T1 T2 T3 h1 h2 h3
  have c1 : s.compIn.coeff 0 = .pure T1 := h1 ▸ coeff_eq s.compIn 0
  have c2 : s.compIn.coeff 1 = .pure T2 := h2 ▸ coeff_eq s.compIn 1
  have c3 : s.compIn.coeff 2 = .pure T3 := h3 ▸ coeff_eq s.compIn 2
  refine ⟨fun hs d a m v hd ha hm hv => ?_, fun hs b q m v hb hq hm hv => ?_, fun hs f hf => ?_,
    fun hs m n hm hn => ?_⟩ <;> refine sequencerStep_afterStage (by rw [hs]; rfl) ?_
  · subst hd ha hm hv
    simp [pipeStep, State.pipe, hs, pipeTS1, exprA, exprV1, c1, c2, Bool.or_assoc]
  · subst hb hq hm hv
    simp [pipeStep, State.pipe, hs, pipeTS2, exprB, exprV2, c1, c3, Bool.or_assoc]
  · subst hf
    simp [pipeStep, State.pipe, hs, pipeTS3, exprFine]
  · subst hm hn
    simp [pipeStep, State.pipe, hs, pipeTS4, exprTnum, exprTcenti]

/-- Settles O38: each stage is its right-hand side, evaluated innermost first. -/
theorem pressureDenominatorStages : Obligations.PressureDenominatorStages := by
  intro s X Y P1 P2 P3 P4 P5 P6 hX hY h1 h2 h3 h4 h5 h6
  subst hX hY
  have c1 : s.compIn.coeff 3 = .pure P1 := h1 ▸ coeff_eq s.compIn 3
  have c2 : s.compIn.coeff 4 = .pure P2 := h2 ▸ coeff_eq s.compIn 4
  have c3 : s.compIn.coeff 5 = .pure P3 := h3 ▸ coeff_eq s.compIn 5
  have c4 : s.compIn.coeff 6 = .pure P4 := h4 ▸ coeff_eq s.compIn 6
  have c5 : s.compIn.coeff 7 = .pure P5 := h5 ▸ coeff_eq s.compIn 7
  have c6 : s.compIn.coeff 8 = .pure P6 := h6 ▸ coeff_eq s.compIn 8
  refine ⟨fun hs x hx => ?_, fun hs q y hq hy => ?_, fun hs m h y hm hh hy => ?_, fun hs h y hh hy => ?_,
    fun hs q m k h x hq hm hk hh hx => ?_, fun hs a m ha hm => ?_⟩ <;>
    refine sequencerStep_afterStage (by rw [hs]; rfl) ?_
  · subst hx
    simp [pipeStep, State.pipe, hs, pipePS1, exprX1, const128000]
  · subst hq hy
    simp [pipeStep, State.pipe, hs, pipePS2, exprY2, c6]
  · subst hm hh hy
    simp [pipeStep, State.pipe, hs, pipePS3, exprY3, c5, Bool.or_assoc]
  · subst hh hy
    simp [pipeStep, State.pipe, hs, pipePS4, exprY4, c4]
  · subst hq hm hk hh hx
    simp [pipeStep, State.pipe, hs, pipePS5, exprX5, c3, c2, Bool.or_assoc]
  · subst ha hm
    simp [pipeStep, State.pipe, hs, pipePS6, exprX6, const2p47, c1]

/-- Settles O39: each stage is its right-hand side, evaluated innermost first. -/
theorem pressureAndFloatStages : Obligations.PressureAndFloatStages := by
  intro s X Y P P7 P8 P9 hX hY hP h7 h8 h9
  subst hX hY hP
  have c7 : s.compIn.coeff 9 = .pure P7 := h7 ▸ coeff_eq s.compIn 9
  have c8 : s.compIn.coeff 10 = .pure P8 := h8 ▸ coeff_eq s.compIn 10
  have c9 : s.compIn.coeff 11 = .pure P9 := h9 ▸ coeff_eq s.compIn 11
  refine ⟨fun hs p hp => ?_, fun hs h d m p hh hd hm hp => ?_, fun hs m q hm hq => ?_, fun hs m hm => ?_,
    fun hs a b h p ha hb hh hp => ?_, fun hs => ?_⟩ <;>
    refine sequencerStep_afterStage (by rw [hs]; rfl) ?_
  · subst hp
    simp [pipeStep, State.pipe, hs, pipePS8, exprP8, const1048576]
  · subst hh hd hm hp
    simp [pipeStep, State.pipe, hs, pipePS9, exprP9, const3125, Bool.or_assoc]
  · subst hm hq
    simp [pipeStep, State.pipe, hs, pipePS10, exprX10, c9]
  · subst hm
    simp [pipeStep, State.pipe, hs, pipePS11, exprY11, c8]
  · subst ha hb hh hp
    simp [pipeStep, State.pipe, hs, pipePS12, exprP12, c7, Bool.or_assoc]
  · simp [pipeStep, State.pipe, hs, pipeFcvt]

end Sys2Proof.Machine

namespace Sys2Proof.Machine

/-! ### The hardware reset -/

/-- Settles O11: by the fields of the reset. -/
theorem hardwareResetSetsEveryItem : Obligations.HardwareResetSetsEveryItem := by
  intro s rest hi
  refine ⟨(s.withInputs rest).hardReset, by simp [step, hi, perform], ?_⟩
  simp [LockCell.zero]

/-! ### Accesses without effect -/

theorem isBufferByte_iff {a : Nat} : isBufferByte a = true ↔ 0x10 ≤ a ∧ a < 0x2E := by
  rw [isBufferByte, Bool.and_eq_true, decide_eq_true_eq, decide_eq_true_eq]
  rfl

/-- A write that is not to `CMD` and starts at no buffer byte is at most recorded. -/
theorem memWrite_ignored {s : State} {off : Nat} (n : Nat) (v : Word) (h0 : off ≠ 0)
    (hb : ¬isBufferByte off = true) : ∃ r, memWrite s off n v = .next (s.withResp r) := by
  unfold memWrite
  split_ifs
  · exact ⟨.ack, by rw [bufferWrite, if_neg hb]⟩
  · exact ⟨.ack, rfl⟩
  · exact ⟨.busError, rfl⟩

/-- Settles O51: a read is only recorded, and so is a write that reaches neither `CMD` nor a buffer byte. -/
theorem readsAndReadOnlyWritesHaveNoEffect : Obligations.ReadsAndReadOnlyWritesHaveNoEffect :=
  fun s off n v => ⟨⟨readResponse s off n, rfl⟩, fun h4 hout =>
    memWrite_ignored n v (by omega) (mt isBufferByte_iff.mp hout)⟩

/-! ### The words of the flags and of the lock -/

theorem bit_toNat (b : Bool) : bit b = b.toNat := by cases b <;> rfl

/-- `STATUS` is the eleven flags from bit 0 up, and above them five zeros and the stage code. -/
theorem statusWord_eq (f : Flags) (st : Stage) : statusWord f st = BitVec.ofNat 32
    (Nat.bit f.busy <| Nat.bit f.done <| Nat.bit f.err <| Nat.bit f.failed <| Nat.bit f.calValid <|
      Nat.bit f.rawValid <| Nat.bit f.resValid <| Nat.bit f.zden <| Nat.bit f.ovf <| Nat.bit f.cmdovr <|
      Nat.bit f.lockviol (2 ^ 5 * st.code.toNat)) := by
  simp only [statusWord, Nat.bit_val, bit_toNat]
  congr 1
  omega

/-- Above the flags `STATUS` shows the stage code from bit 16 up. -/
theorem statusWord_getLsbD_high (f : Flags) (st : Stage) (k : Nat) :
    (statusWord f st).getLsbD (k + 11) = (decide (5 ≤ k) && st.code.getLsbD (k - 5)) := by
  rw [statusWord_eq, BitVec.getLsbD_ofNat]
  simp only [Nat.testBit_bit_succ, Nat.testBit_two_pow_mul]
  by_cases h : k + 11 < 32
  · simp [h, BitVec.getLsbD]
  · have : st.code.getLsbD (k - 5) = false := BitVec.getLsbD_of_ge _ _ (by omega)
    simp [h, this]

theorem statusWord_reserved (f : Flags) (st : Stage) : (statusWord f st).extractLsb' 11 5 = 0 := by
  ext i hi
  rw [BitVec.getElem_extractLsb', Nat.add_comm, statusWord_getLsbD_high]
  simp [hi]

theorem statusWord_stage (f : Flags) (st : Stage) : (statusWord f st).extractLsb' 16 8 = st.code := by
  ext i hi
  rw [BitVec.getElem_extractLsb', show 16 + i = i + 5 + 11 by omega, statusWord_getLsbD_high]
  simp [BitVec.getLsbD_eq_getElem hi]

theorem statusWord_top (f : Flags) (st : Stage) : (statusWord f st).extractLsb' 24 8 = 0 := by
  ext i hi
  rw [BitVec.getElem_extractLsb', show 24 + i = i + 13 + 11 by omega, statusWord_getLsbD_high]
  simp

theorem lockWord_toNat (l : LockCell) :
    (lockWord l).toNat = 2147483648 * l.held.toNat + l.owner.toNat := by
  have := Bool.toNat_le l.held
  rw [lockWord, bit_toNat, BitVec.toNat_ofNat, Nat.mod_eq_of_lt (by omega)]

theorem lockWord_held (l : LockCell) : (lockWord l).getLsbD 31 = l.held := by
  have top : (lockWord l).toNat / 2 ^ 31 % 2 = l.held.toNat := by
    have := Bool.toNat_le l.held
    rw [lockWord_toNat]
    omega
  rw [BitVec.getLsbD, Nat.testBit_eq_decide_div_mod_eq, top]
  cases l.held <;> rfl

theorem lockWord_owner (l : LockCell) : (lockWord l).extractLsb' 0 8 = l.owner := by
  apply BitVec.eq_of_toNat_eq
  rw [BitVec.extractLsb'_toNat, Nat.shiftRight_zero, lockWord_toNat]
  omega

theorem lockWord_reserved (l : LockCell) : (lockWord l).extractLsb' 8 23 = 0 := by
  apply BitVec.eq_of_toNat_eq
  rw [BitVec.extractLsb'_toNat, Nat.shiftRight_eq_div_pow, lockWord_toNat]
  change _ = 0
  omega

theorem lockWord_injective : Function.Injective lockWord := fun l m h => by
  have held : l.held = m.held := by rw [← lockWord_held, h, lockWord_held]
  have owner : l.owner = m.owner := by rw [← lockWord_owner, h, lockWord_owner]
  cases l
  cases m
  cases held
  cases owner
  rfl

theorem lockWord_owned (a : Byte) : lockWord ⟨true, a⟩ = 0x80000000#32 ||| a.zeroExtend 32 := by
  apply BitVec.eq_of_toNat_eq
  have small : a.toNat < 2 ^ 31 := by omega
  rw [lockWord_toNat, BitVec.toNat_or, BitVec.toNat_setWidth, Nat.mod_eq_of_lt (by omega)]
  exact Nat.two_pow_add_eq_or_of_lt small 1

/-- Settles O54: by the fields of the two words; `LOCK` tells cells apart. -/
theorem statusAndLockLayout : Obligations.StatusAndLockLayout := by
  refine ⟨fun f st => ?_, fun f => ?_, fun l a => ⟨lockWord_held l, lockWord_owner l, lockWord_reserved l, ?_⟩⟩
  · rw [statusWord_reserved, statusWord_stage, statusWord_top]
    simp only [statusWord_eq, BitVec.getLsbD_ofNat, Nat.testBit_bit_succ, Nat.testBit_bit_zero]
    simp
  · simp only [statusWord_stage, Stage.code, and_self]
  · rw [← lockWord_owned, lockWord_injective.eq_iff]

/-! ### The register map -/

/-- A word is the little-endian value of its bytes. -/
theorem bytesWord_wordBytes (w : Word) : bytesWord (wordBytes w) = w := by
  apply BitVec.eq_of_toNat_eq
  simp only [wordBytes, bytesWord, byteOf, BitVec.toNat_ofNat, Nat.shiftRight_eq_div_pow]
  omega

/-- A byte outside the buffers is one of the register word it lies in. -/
theorem windowByte_register {s : State} {off : Nat} (hoff : off % 4 = 0) (hout : off < 0x10 ∨ 0x30 ≤ off)
    {j : Nat} (hj : j < 4) : windowByte s (off + j) = byteOf (registerWord s off) j := by
  have hb : ¬isBufferByte (off + j) = true := by rw [isBufferByte_iff]; omega
  rw [windowByte, if_neg hb, show (off + j) / 4 * 4 = off by omega, show (off + j) % 4 = j by omega]

/-- A 4-byte read outside the buffers shows the register word (10_state.md R40). -/
theorem memRead_register (s : State) {off : Nat} (hoff : off % 4 = 0) (hend : off + 4 ≤ 256)
    (hout : off < 0x10 ∨ 0x30 ≤ off) : memRead s off 4 = some (registerWord s off) := by
  have legal : legalAccess off 4 = true := by
    have : ¬(calbufBase ≤ off ∧ off < bufferRegionEnd) := by rw [calbufBase, bufferRegionEnd]; omega
    simp [legalAccess, this, hoff, windowSize, hend]
  have bytes : windowBytes s off 4 = wordBytes (registerWord s off) := by
    simp only [windowBytes, Nat.add_assoc, wordBytes]
    simp only [← windowByte_register hoff hout (s := s), Nat.reduceLT, Nat.reduceAdd, Nat.add_zero]
  rw [memRead, if_pos legal, bytes, bytesWord_wordBytes]

/-- A 1-byte read in the buffer region shows the byte (20_memory.md R67). -/
theorem memRead_byte (s : State) {a : Nat} (ha : 0x10 ≤ a) (ha' : a < 0x30) :
    memRead s a 1 = some ((windowByte s a).zeroExtend 32) := by
  have legal : legalAccess a 1 = true := by
    simp [legalAccess, calbufBase, bufferRegionEnd, ha, ha', Nat.mod_one]
  rw [memRead, if_pos legal]
  simp only [windowBytes, bytesWord]
  congr 1
  apply BitVec.eq_of_toNat_eq
  simp

/-- `CAL_W[k]` as the window shows it (10_state.md R46). -/
theorem memRead_coefficient (s : State) (k : Fin 12) : memRead s (0x60 + 4 * k.val) 4 =
    some (if k ∈ s.cfg.calUnsigned then (s.cal.get k).zeroExtend 32 else (s.cal.get k).signExtend 32) := by
  have word : registerWord s (0x60 + 4 * k.val) = coeffWord s.cfg s.cal k := by fin_cases k <;> rfl
  rw [memRead_register s (by omega) (by omega) (by omega), word]
  simp [coeffWord, isUnsigned]

/-- The offsets from 0x90 on are reserved (10_state.md R41). -/
theorem registerWord_reserved (s : State) {off : Nat} (h : 0x90 ≤ off) : registerWord s off = 0 := by
  unfold registerWord
  split <;> simp at h ⊢

/-- Settles O55: each register is a word of the map, each buffer byte one of the memory. -/
theorem registerMapReads : Obligations.RegisterMapReads := by
  intro s
  have register {off : Nat} (h : off % 4 = 0 ∧ off + 4 ≤ 256 ∧ (off < 0x10 ∨ 0x30 ≤ off)) :
      memRead s off 4 = some (registerWord s off) := memRead_register s h.1 h.2.1 h.2.2
  refine ⟨register (by decide), register (by decide), register (by decide), register (by decide),
    register (by decide), register (by decide), register (by decide), register (by decide),
    register (by decide), register (by decide), register (by decide), register (by decide),
    register (by decide), register (by decide), register (by decide), register (by decide),
    memRead_coefficient s, fun k hk => ?_, fun a ha => ?_, fun a ha ha' => ?_⟩
  · rw [register (by omega), registerWord_reserved s (by omega)]
  · have hb : ¬isBufferByte a = true := by rw [isBufferByte_iff]; omega
    have word : registerWord s (a / 4 * 4) = 0 := by rcases ha with rfl | rfl <;> rfl
    rw [memRead_byte s (by omega) (by omega), windowByte, if_neg hb, word]
    simp [byteOf]
  · rw [memRead_byte s ha (by omega), windowByte, if_pos (isBufferByte_iff.mpr ⟨ha, ha'⟩)]

theorem CalSet.zero_get (k : Fin 12) : CalSet.zero.get k = 0 := by
  revert k
  decide

/-- Settles O56: by the read of the coefficient words; before a set is loaded the file is 0. -/
theorem coefficientWordsAreExtended : Obligations.CoefficientWordsAreExtended := by
  intro s k
  rw [memRead_coefficient]
  refine ⟨fun hk => by rw [if_pos hk], fun hk => by rw [if_neg hk], fun hinv hc => ?_⟩
  rw [hinv.calClear hc, CalSet.zero_get]
  simp

end Sys2Proof.Machine

/-! ### Accesses to the window, the command word of a step, and bus operations under the lock -/

namespace Sys2Proof.Machine

/-! ### The command word of a step -/

/-- A write to `CMD` is acknowledged and its word decoded (30_encoding.md R99). -/
theorem memWrite_command (s : State) (w : Word) : memWrite s 0 4 w = commandWrite w (s.withResp .ack) := rfl

theorem commandWrite_decoded {w : Word} {i : Instr} (h : decode w = .ok i) (s : State) :
    commandWrite w s = exec i s := by rw [commandWrite, h]

/-- The byte address `BASE` is window offset 0 (20_memory.md R60). -/
theorem addressAccess_base (s : State) (n : Nat) (v : Word) :
    addressAccess (.write s.cfg.baseAddress n v) s = memWrite s 0 n v := by
  have window : windowAccess s.cfg (.write s.cfg.baseAddress n v) = some (.write 0 n v) := by
    simp [windowAccess, Access.start, Access.moveTo, windowSize]
  rw [addressAccess, window]
  rfl

/-- A table word that decodes is a command word. -/
theorem decode_of_decodeTableWord {nbits w : Nat} {i : Instr} (h : decodeTableWord nbits w = some i) :
    decode (BitVec.ofNat 32 (tableBits nbits w)) = .ok i := by
  rw [decodeTableWord, wordBytes, decodeBytes, ← wordBytes, bytesWord_wordBytes] at h
  cases hd : decode (BitVec.ofNat 32 (tableBits nbits w)) with
  | error e => simp [hd] at h
  | ok j =>
    simp only [hd, Option.ite_none_right_eq_some, Option.some.injEq] at h
    rw [h.2]

/-- Settles O5: the step hands the word written to `CMD` to the decoder. -/
theorem stepRunsDecodedCommand : Obligations.StepRunsDecodedCommand := by
  have run (u : State) {w : Word} {i : Instr} (hd : decode w = .ok i) :
      memWrite u 0 4 w = exec i (u.withResp .ack) :=
    (memWrite_command u w).trans (commandWrite_decoded hd _)
  refine ⟨fun s rest w i hin hd => ?_, fun s nbits w i hd => run s (decode_of_decodeTableWord hd)⟩
  rw [← run _ hd]
  rcases hin with hin | hin
  · rw [step, hin]
    rfl
  · rw [step, hin]
    exact addressAccess_base (s.withInputs rest) 4 w

/-! ### The legal accesses -/

/-- The sizes and alignments of 20_memory.md R63. -/
theorem legalAccess_iff {off n : Nat} : legalAccess off n = true ↔
    ((0x10 ≤ off ∧ off ≤ 0x2F) ∧ (n = 1 ∨ n = 2 ∨ n = 4) ∧ n ∣ off) ∨
      (¬(0x10 ≤ off ∧ off ≤ 0x2F) ∧ n = 4 ∧ 4 ∣ off ∧ off + 4 ≤ 256) := by
  have region : calbufBase ≤ off ∧ off < bufferRegionEnd ↔ 0x10 ≤ off ∧ off ≤ 0x2F := by
    rw [calbufBase, bufferRegionEnd]
    omega
  by_cases hr : 0x10 ≤ off ∧ off ≤ 0x2F
  · simp [legalAccess, region, hr, Nat.dvd_iff_mod_eq_zero, or_assoc]
  · simp only [legalAccess, region, hr, if_false, Bool.and_eq_true, beq_iff_eq, decide_eq_true_eq,
      Nat.dvd_iff_mod_eq_zero, false_and, false_or, not_false_eq_true, true_and]
    rw [windowSize]
    omega

theorem memWrite_illegal {off n : Nat} (h : legalAccess off n = false) (s : State) (v : Word) :
    memWrite s off n v = .next (s.withResp .busError) := by simp [memWrite, h]

theorem readResponse_illegal {off n : Nat} (h : legalAccess off n = false) (s : State) :
    readResponse s off n = .busError := by simp [readResponse, memRead, h]

theorem readResponse_legal {off n : Nat} (h : legalAccess off n = true) (s : State) :
    ∃ x, readResponse s off n = .value n x :=
  ⟨bytesWord (windowBytes s off n), by simp [readResponse, memRead, h]⟩

/-- A buffer write touches no field outside the block, and not the lock cell. -/
theorem bufferWrite_frame (s : State) (off n : Nat) (v : Word) :
    (bufferWrite s off n v).env = s.env ∧ (bufferWrite s off n v).lock = s.lock := by
  rcases bufferWrite_cases s off n v with ⟨-, -, e⟩ | ⟨-, -, e⟩ | ⟨-, e⟩ <;> rw [e] <;> exact ⟨rfl, rfl⟩

/-- A legal write that is not to `CMD` is acknowledged. -/
theorem memWrite_ack {off n : Nat} (h : legalAccess off n = true) (h0 : off ≠ 0) (s : State) (v : Word) :
    ∃ t, memWrite s off n v = .next t ∧ t.env.resp = .ack := by
  rw [memWrite, if_pos h, if_neg h0]
  split_ifs
  · exact ⟨_, rfl, congrArg Env.resp (bufferWrite_frame ..).1⟩
  · exact ⟨_, rfl, rfl⟩

/-- Settles O50: the model's test of an access is that of 20_memory.md R63. -/
theorem illegalAccessesGetBusError : Obligations.IllegalAccessesGetBusError := by
  intro s off n v
  rw [← legalAccess_iff]
  refine ⟨fun h => ⟨?_, fun h0 => memWrite_ack h h0 s v⟩, fun h => ?_⟩
  · obtain ⟨x, hx⟩ := readResponse_legal h s
    exact ⟨x, by rw [hostAccess, hx]⟩
  · have illegal : legalAccess off n = false := by simpa using h
    exact ⟨by rw [hostAccess, readResponse_illegal illegal], memWrite_illegal illegal s v⟩

/-! ### Writes to the buffers -/

/-- A legal write that starts at a buffer byte is a buffer write. -/
theorem memWrite_buffer {off n : Nat} (h : legalAccess off n = true) (hb : isBufferByte off = true)
    (s : State) (v : Word) : memWrite s off n v = .next (bufferWrite (s.withResp .ack) off n v) := by
  obtain ⟨hlo, hhi⟩ := isBufferByte_iff.mp hb
  have region : calbufBase ≤ off ∧ off < bufferRegionEnd := by
    rw [calbufBase, bufferRegionEnd]
    omega
  rw [memWrite, if_pos h, if_neg (by omega), if_pos region]

/-- A buffer byte reads as the memory holds it (20_memory.md R67). -/
theorem memRead_bufferByte (s : State) {a : Nat} (ha : 0x10 ≤ a) (ha' : a < 0x2E) :
    memRead s a 1 = some ((Memory.read s.mem a).zeroExtend 32) := by
  rw [memRead_byte s ha (by omega), windowByte, if_pos (isBufferByte_iff.mpr ⟨ha, ha'⟩)]

/-- The two bytes behind the buffers read 0 (10_state.md R41). -/
theorem memRead_reservedByte (s : State) {a : Nat} (ha : a / 2 = 0x17) : memRead s a 1 = some 0 := by
  have hb : ¬isBufferByte a = true := by rw [isBufferByte_iff]; omega
  have word : registerWord s (a / 4 * 4) = 0 := by rw [show a / 4 * 4 = 0x2C by omega]; rfl
  rw [memRead_byte s (by omega) (by omega), windowByte, if_neg hb, word]
  simp [byteOf]

/-- Settles O52: by the read of each byte after the store. -/
theorem bufferWritesStoreOrDrop : Obligations.BufferWritesStoreOrDrop := by
  intro s off n v hwf hlegal hlo hhi
  have hb : isBufferByte off = true := isBufferByte_iff.mpr ⟨hlo, hhi⟩
  have write : hostAccess (.write off n v) s = .next (bufferWrite (s.withResp .ack) off n v) :=
    memWrite_buffer hlegal hb s v
  refine ⟨fun hbusy => ?_, fun hbusy => ⟨storeBytes s.mem off v n, ?_, fun j hj hend => ?_, fun a ha => ?_⟩,
    fun a => memRead_bufferByte s, memRead_reservedByte s rfl, memRead_reservedByte s rfl⟩
  · rw [write, bufferWrite, if_pos hb, State.withResp_flags, if_pos hbusy]
  · rw [write, bufferWrite, if_pos hb, State.withResp_flags, if_neg (by simp [hbusy])]
    rfl
  · have stored : off ≤ off + j ∧ off + j < off + n ∧ isBufferByte (off + j) = true :=
      ⟨by omega, by omega, isBufferByte_iff.mpr ⟨by omega, hend⟩⟩
    rw [Memory.read_storeBytes hwf, if_pos stored, Nat.add_sub_cancel_left]
  · have kept : ¬(off ≤ a ∧ a < off + n ∧ isBufferByte a = true) := by
      rw [isBufferByte_iff]
      omega
    rw [Memory.read_storeBytes hwf, if_neg kept]

/-! ### The byte order of a read -/

theorem byteOf_toNat (w : Word) (j : Nat) : (byteOf w j).toNat = w.toNat / 2 ^ (8 * j) % 2 ^ 8 := by
  rw [byteOf, BitVec.toNat_ofNat, Nat.shiftRight_eq_div_pow]

theorem bytesWord_toNat_cons (b : Byte) (bs : List Byte) :
    (bytesWord (b :: bs)).toNat = (b.toNat + 2 ^ 8 * (bytesWord bs).toNat) % 2 ^ 32 :=
  BitVec.toNat_ofNat ..

theorem bytesWord_toNat_lt {bs : List Byte} (h : bs.length ≤ 4) :
    (bytesWord bs).toNat < 2 ^ (8 * bs.length) := by
  induction bs with
  | nil => decide
  | cons b bs ih =>
    have tail := ih (Nat.le_of_succ_le h)
    rw [bytesWord_toNat_cons, List.length_cons, Nat.mul_succ, Nat.pow_add]
    exact (Nat.mod_le _ _).trans_lt (by omega)

/-- The first byte of a list is byte 0 of its word, and the others follow (20_memory.md R64). -/
theorem byteOf_bytesWord {bs : List Byte} (h : bs.length ≤ 4) (j : Nat) :
    byteOf (bytesWord bs) j = bs.getD j 0 := by
  induction bs generalizing j with
  | nil => simp [bytesWord, byteOf]
  | cons b bs ih =>
    have hlen : bs.length ≤ 3 := Nat.le_of_succ_le_succ h
    have tail : (bytesWord bs).toNat < 2 ^ 24 :=
      (bytesWord_toNat_lt (by omega)).trans_le (Nat.pow_le_pow_right (by decide) (by omega))
    have whole : (bytesWord (b :: bs)).toNat = b.toNat + 2 ^ 8 * (bytesWord bs).toNat := by
      rw [bytesWord_toNat_cons, Nat.mod_eq_of_lt (by omega)]
    apply BitVec.eq_of_toNat_eq
    cases j with
    | zero =>
      rw [byteOf_toNat, whole, List.getD_cons_zero]
      omega
    | succ j =>
      rw [List.getD_cons_succ, ← ih (by omega), byteOf_toNat, byteOf_toNat, whole, Nat.mul_succ,
        Nat.add_comm (8 * j), Nat.pow_add, ← Nat.div_div_eq_div_mul]
      congr 2
      omega

@[simp] theorem windowBytes_length (s : State) (off n : Nat) : (windowBytes s off n).length = n := by
  induction n generalizing off with
  | zero => rfl
  | succ n ih => rw [windowBytes, List.length_cons, ih]

theorem windowBytes_getD (s : State) (off n j : Nat) :
    (windowBytes s off n).getD j 0 = if j < n then windowByte s (off + j) else 0 := by
  induction n generalizing off j with
  | zero => rfl
  | succ n ih =>
    cases j with
    | zero => rfl
    | succ j =>
      rw [windowBytes, List.getD_cons_succ, ih, Nat.add_assoc, Nat.add_comm 1]
      simp only [Nat.succ_lt_succ_iff]

theorem legalAccess_size_le {off n : Nat} (h : legalAccess off n = true) : n ≤ 4 := by
  rcases legalAccess_iff.mp h with ⟨-, hn, -⟩ | ⟨-, hn, -⟩ <;> omega

/-- Settles O53: a read is the word of at most four window bytes. -/
theorem windowIsLittleEndian : Obligations.WindowIsLittleEndian := by
  intro s off n v h
  obtain ⟨legal, hv⟩ := Option.ite_none_right_eq_some.mp h
  obtain rfl := Option.some.inj hv
  have byte (j : Nat) : byteOf (bytesWord (windowBytes s off n)) j =
      if j < n then windowByte s (off + j) else 0 := by
    rw [byteOf_bytesWord (by simpa using legalAccess_size_le legal), windowBytes_getD]
  exact ⟨fun j hj => by rw [byte, if_pos hj], fun j hj => by rw [byte, if_neg (by omega)]⟩

/-! ### The owner of the lock and the bus operations -/

section Ownership
variable {a : Byte} {w : Word} {s t : State}

/-- No stage of the sequencer touches the lock cell (43_lock.md R201). -/
theorem sequencerStep_lock (h : sequencerStep s = .next t) : t.lock = s.lock := by
  rcases sequencerStep_next h with ⟨-, rfl⟩ | ⟨-, rfl⟩ | ⟨-, rfl⟩ | ⟨-, rfl⟩ | ⟨-, rfl⟩ | ⟨-, rfl⟩ |
    ⟨-, rfl⟩ | ⟨-, rfl⟩
  · rfl
  · unfold stageCalCheck
    split <;> rfl
  · rfl
  · rfl
  · unfold stageRawCheck
    split <;> rfl
  · rfl
  · rfl
  · rfl

theorem launch_lock (h : launch s = .next t) : t.lock = s.lock :=
  launch_keeps (P := fun u => u.lock = s.lock) (fun _ _ hu _ hq => (sequencerStep_lock hq).trans hu) rfl h

theorem CommandStart.lock_eq (h : CommandStart w s t) : t.lock = s.lock := by cases h <;> rfl

/-- A cell that is held is left alone by every try (43_lock.md R192). -/
theorem OwnedBy.of_lockTry (ho : OwnedBy a s) {b : Byte} (h : exec (.lockTry b) s = .next t) :
    OwnedBy a t := by
  have held : s.lock.held = true := by rw [ho]
  simp only [exec, execLockTry, State.tryLock_held b held] at h
  split_ifs at h <;> cases h <;> exact ho

/-- A release by another agent leaves the cell to its owner (43_lock.md R194). -/
theorem OwnedBy.of_lockRel (ho : OwnedBy a s) {b : Byte} (hb : b ≠ a) (h : exec (.lockRel b) s = .next t) :
    OwnedBy a t := by
  have other : ¬(s.lock.held = true ∧ s.lock.owner = b) := by
    rw [ho]
    exact fun hc => hb hc.2.symm
  simp only [exec, execLockRel, State.releaseLock_other other] at h
  split_ifs at h <;> cases h <;> exact ho

/-- Of all command words only the owner's `LOCK_REL` takes the lock from it. -/
theorem OwnedBy.of_commandWrite (ho : OwnedBy a s) (h : commandWrite w s = .next t) :
    OwnedBy a t ∨ decode w = .ok (.lockRel a) := by
  cases commandWrite_op h with
  | none => exact .inl ho
  | dropped _ => exact .inl ho
  | violation => exact .inl ho
  | lock l hw =>
    obtain ⟨b, hw | hw⟩ := hw
    · exact .inl (ho.of_lockTry ((commandWrite_decoded hw s).symm.trans h))
    · by_cases hb : b = a
      · exact .inr (hb ▸ hw)
      · exact .inl (ho.of_lockRel hb ((commandWrite_decoded hw s).symm.trans h))
  | softReset _ => exact .inl ho
  | clearError _ => exact .inl ho
  | refused _ _ => exact .inl ho
  | started _ hu hl => exact .inl (((launch_lock hl).trans hu.lock_eq).trans ho)

/-- The owner keeps the lock through every step that does not free it (43_lock.md R198). -/
theorem OwnedBy.step (ho : OwnedBy a s) (hfree : ¬FreesLock a s) (h : step s = .next t) : OwnedBy a t := by
  obtain ⟨e, e', u, hu, rfl⟩ := step_oneEventOp h
  have ho' : OwnedBy a { s with env := e } := ho
  cases hu with
  | none => exact ho
  | command hc hw =>
    exact (ho'.of_commandWrite hw).resolve_right fun hd => hfree (.inr ⟨_, hc, hd⟩)
  | buffer off n v => exact (bufferWrite_frame { s with env := e } off n v).2.trans ho
  | stage _ hq => exact (sequencerStep_lock hq).trans ho
  | hardReset he => exact absurd (.inl he) hfree

/-- The owner keeps the lock along a run in which no step frees it. -/
theorem Run.ownedBy {σ : Nat → State} {n i j : Nat} (hrun : Run σ n) (hij : i ≤ j) (hj : j ≤ n)
    (ho : OwnedBy a (σ i)) (hfree : ∀ m, i ≤ m → m < j → ¬FreesLock a (σ m)) : OwnedBy a (σ j) := by
  induction j, hij using Nat.le_induction with
  | base => exact ho
  | succ j hij ih =>
    have before := ih (by omega) fun m him hmj => hfree m him (by omega)
    exact before.step (hfree j hij (by omega)) (hrun j (by omega))

theorem OwnedBy.agent_unique {b : Byte} (ha : OwnedBy a s) (hb : OwnedBy b s) : a = b :=
  congrArg LockCell.owner (ha.symm.trans hb)

/-- A step that records a bus operation performs no window access. -/
theorem nextAccess_of_busAgent (h : s.nextBusAgent = some a) : s.nextAccess = none := by
  obtain ⟨e, he, hbus⟩ := Option.bind_eq_some_iff.mp h
  rw [State.nextAccess, he, Option.bind_some]
  cases e with
  | sequencer | access | address | hardReset => cases hbus
  | bus b op => rfl
  | thread k =>
    simp only [Event.busAgentIn, Event.accessIn] at hbus ⊢
    split at hbus
    · cases hbus
    · split at hbus
      · next hl => simp [hl, Line.access]
      · cases hbus

/-- A step that records a bus operation frees no lock. -/
theorem not_freesLock_of_busAgent {b : Byte} (h : s.nextBusAgent = some b) : ¬FreesLock a s := by
  rintro (he | ⟨w, hw, -⟩)
  · rw [State.nextBusAgent, he] at h
    cases h
  · rw [State.nextCommand, nextAccess_of_busAgent h] at hw
    cases hw

end Ownership

/-- Settles O58: the first agent owns the lock at its operation and would still own it at the other's. -/
theorem busTransactionsNeverInterleave : Obligations.BusTransactionsNeverInterleave := by
  intro σ n a b i j hrun hduty hij hjn hab hi hj
  by_contra hnone
  push Not at hnone
  have kept : OwnedBy a (σ j) := hrun.ownedBy hij.le hjn.le (hduty i (by omega) a hi) fun m him hmj => by
    rcases him.eq_or_lt with rfl | him
    · exact not_freesLock_of_busAgent hi
    · exact hnone m him hmj
  exact hab (kept.agent_unique (hduty j hjn b hj))

end Sys2Proof.Machine


/-! ### Decoding and encoding

A command word is its three fields `ZERO16`, `AGENT`, `OPC`. The decoder accepts a word exactly when it is the
word of a well-formed command, and refuses it by the ranges of 30_encoding.md R95. -/

namespace Sys2Proof.Machine

/-! #### The fields of a word -/

theorem append_eq_append_iff {m n : Nat} {x x' : BitVec m} {y y' : BitVec n} :
    x ++ y = x' ++ y' ↔ x = x' ∧ y = y' := by
  refine ⟨fun h => ⟨?_, ?_⟩, fun ⟨hx, hy⟩ => by rw [hx, hy]⟩
  · simpa [BitVec.extractLsb'_append_eq_left] using congrArg (BitVec.extractLsb' n m) h
  · simpa [BitVec.extractLsb'_append_eq_right] using congrArg (BitVec.extractLsb' 0 n) h

/-- `ZERO24` of format E lies over `ZERO16` and `AGENT` of format L (30_encoding.md R91). -/
theorem zero24Of_eq (w : Word) : zero24Of w = zero16Of w ++ agentOf w :=
  (BitVec.extractLsb'_append_extractLsb'_eq_extractLsb' (start₁ := 8) (len₁ := 8) (len₂ := 16) rfl).symm

/-- A word is its three fields. -/
theorem fields_append (w : Word) : (zero16Of w ++ agentOf w) ++ opcOf w = w := by
  rw [← zero24Of_eq]
  exact (BitVec.extractLsb'_append_extractLsb'_eq_extractLsb' (start₁ := 0) (len₁ := 8) (len₂ := 24) rfl).trans
    BitVec.extractLsb'_eq_self

theorem zero24Of_eq_zero_iff {w : Word} : zero24Of w = 0 ↔ zero16Of w = 0 ∧ agentOf w = 0 := by
  rw [zero24Of_eq, ← append_eq_append_iff]
  rfl

/-- A word is a command's exactly when its fields are the command's. -/
theorem encode_eq_iff {w : Word} {i : Instr} :
    encode i = w ↔ zero16Of w = 0 ∧ agentOf w = agentFieldOf i ∧ opcOf w = opcodeOf i := by
  conv_lhs => rw [eq_comm, ← fields_append w, encode, append_eq_append_iff, append_eq_append_iff, and_assoc]
  rfl

theorem zero16Of_encode (i : Instr) : zero16Of (encode i) = 0 := (encode_eq_iff.mp rfl).1

theorem agentOf_encode (i : Instr) : agentOf (encode i) = agentFieldOf i := (encode_eq_iff.mp rfl).2.1

theorem opcOf_encode (i : Instr) : opcOf (encode i) = opcodeOf i := (encode_eq_iff.mp rfl).2.2

/-! #### The words that are commands -/

/-- An opcode of format E selects the command whose opcode it is. -/
theorem decodeOpcE_eq_ok {op : Byte} {i : Instr} (h : decodeOpcE op = .ok i) :
    i.wf = true ∧ agentFieldOf i = 0 ∧ op = opcodeOf i := by
  unfold decodeOpcE at h
  split_ifs at h <;> cases h <;> exact ⟨rfl, rfl, ‹_›⟩

/-- What decodes to a command is the word of a well-formed command. -/
theorem wf_and_encode_of_decode {w : Word} {i : Instr} (h : decode w = .ok i) :
    i.wf = true ∧ encode i = w := by
  rw [encode_eq_iff]
  unfold decode at h
  split_ifs at h with hlock hbad hopc hzero
  · cases h
    obtain ⟨hz, ha⟩ := not_or.mp hbad
    exact ⟨bne_iff_ne.mpr ha, not_not.mp hz, rfl, hopc⟩
  · cases h
    obtain ⟨hz, ha⟩ := not_or.mp hbad
    exact ⟨bne_iff_ne.mpr ha, not_not.mp hz, rfl, hlock.resolve_left hopc⟩
  · obtain ⟨hz, ha⟩ := zero24Of_eq_zero_iff.mp (not_not.mp hzero)
    obtain ⟨hwf, hfield, hop⟩ := decodeOpcE_eq_ok h
    exact ⟨hwf, hz, ha.trans hfield.symm, hop⟩

/-- The word of a well-formed command decodes to it. -/
theorem decode_encode {i : Instr} (h : i.wf = true) : decode (encode i) = .ok i := by
  cases i with
  | nop | calld | rawld | comp | clrerr | sreset => decide
  | lockTry a | lockRel a =>
    have ha : a ≠ 0#8 := bne_iff_ne.mp h
    simp [decode, zero16Of_encode, agentOf_encode, opcOf_encode, agentFieldOf, opcodeOf, ha]

theorem decode_eq_ok_iff {w : Word} {i : Instr} : decode w = .ok i ↔ i.wf = true ∧ encode i = w :=
  ⟨wf_and_encode_of_decode, fun ⟨hwf, hw⟩ => hw ▸ decode_encode hwf⟩

/-- Four bytes decode as their word does. -/
theorem decodeBytes_wordBytes (w : Word) (rest : List Byte) :
    decodeBytes (wordBytes w ++ rest) = (decode w).map (·, rest) := by
  have word : bytesWord [byteOf w 0, byteOf w 1, byteOf w 2, byteOf w 3] = w := bytesWord_wordBytes w
  simp only [wordBytes, List.cons_append, List.nil_append, decodeBytes, word]
  cases decode w <;> rfl

/-- Settles O3: a word decodes to a command exactly when it is the word of a well-formed command, and the
bytes of a word are read back as the word. -/
theorem decodeEncodeRoundTrip : Obligations.DecodeEncodeRoundTrip := by
  refine ⟨fun i hwf => ⟨decode_encode hwf, fun rest => ?_⟩, fun w i => wf_and_encode_of_decode⟩
  rw [encodeBytes, decodeBytes_wordBytes, decode_encode hwf]
  rfl

/-- Settles O1: each is the word of its command. -/
theorem sampleWordsDecode : Obligations.SampleWordsDecode := by
  unfold Obligations.SampleWordsDecode
  decide

/-! #### The rows of the opcode map -/

/-- A row of the opcode map reads `ZERO16` and `OPC` whole and of `AGENT` the bits of some mask
(30_encoding.md R93). -/
theorem table_row (i : Instr) : ∃ m : Byte,
    tableMask i = (BitVec.allOnes 16 ++ m) ++ BitVec.allOnes 8 ∧
      tableMatch i = (0#16 ++ (agentFieldOf i &&& m)) ++ opcodeOf i := by
  cases i with
  | nop | calld | rawld | comp | clrerr | sreset => exact ⟨0xFF, by decide⟩
  | lockTry a | lockRel a => exact ⟨0, rfl, by simp [tableMatch, agentFieldOf, opcodeOf]⟩

/-- The word of a command is in the command's row with the command's agent, and no other word is. -/
theorem tableRow_iff {w : Word} {i : Instr} :
    w &&& tableMask i = tableMatch i ∧ agentOf w = agentFieldOf i ↔ encode i = w := by
  obtain ⟨m, hmask, hmatch⟩ := table_row i
  have row : w &&& tableMask i = tableMatch i ↔
      (zero16Of w = 0 ∧ agentOf w &&& m = agentFieldOf i &&& m) ∧ opcOf w = opcodeOf i := by
    conv_lhs => rw [hmask, hmatch, ← fields_append w, BitVec.and_append, BitVec.and_append,
      append_eq_append_iff, append_eq_append_iff, BitVec.and_allOnes, BitVec.and_allOnes]
    rfl
  rw [row, encode_eq_iff]
  constructor
  · rintro ⟨⟨⟨hz, -⟩, hop⟩, ha⟩
    exact ⟨hz, ha, hop⟩
  · rintro ⟨hz, ha, hop⟩
    exact ⟨⟨⟨hz, by rw [ha]⟩, hop⟩, ha⟩

/-- Settles O2: the row of a command and its agent field fix the word of the command. -/
theorem decodeFollowsOpcodeTable : Obligations.DecodeFollowsOpcodeTable := fun w i => by
  rw [decode_eq_ok_iff, tableRow_iff]

/-! #### The words that are refused -/

theorem decodeOpcE_ne_error {op : Byte} {e : DecodeError} (he : e ≠ .illegal) : decodeOpcE op ≠ .error e := by
  unfold decodeOpcE
  split_ifs <;> simp [he.symm]

/-- The opcodes of format E end at 0x05. -/
theorem decodeOpcE_illegal_iff {op : Byte} : decodeOpcE op = .error .illegal ↔ 0x06 ≤ op.toNat := by
  unfold decodeOpcE
  split_ifs
  iterate 6 exact iff_of_false nofun (by bv_omega)
  exact iff_of_true rfl (by bv_omega)

/-- A word of format L is malformed by its two other fields (30_encoding.md R95). -/
theorem decode_malformedLock_iff {w : Word} : decode w = .error .malformedLock ↔
    (opcOf w = 0x10 ∨ opcOf w = 0x11) ∧ (zero16Of w ≠ 0 ∨ agentOf w = 0) := by
  unfold decode
  split_ifs with hlock hbad hopc hzero
  · exact iff_of_true rfl ⟨hlock, hbad⟩
  · exact iff_of_false nofun fun h => hbad h.2
  · exact iff_of_false nofun fun h => hbad h.2
  · exact iff_of_false nofun fun h => hlock h.1
  · exact iff_of_false (decodeOpcE_ne_error nofun) fun h => hlock h.1

/-- A word of format E is illegal by its opcode or by `ZERO24` (30_encoding.md R95). -/
theorem decode_illegal_iff {w : Word} : decode w = .error .illegal ↔
    ¬(opcOf w = 0x10 ∨ opcOf w = 0x11) ∧ (zero24Of w ≠ 0 ∨ 0x06 ≤ (opcOf w).toNat) := by
  unfold decode
  split_ifs with hlock hbad hopc hzero
  · exact iff_of_false nofun fun h => h.1 hlock
  · exact iff_of_false nofun fun h => h.1 hlock
  · exact iff_of_false nofun fun h => h.1 hlock
  · exact iff_of_true rfl ⟨hlock, .inl hzero⟩
  · exact decodeOpcE_illegal_iff.trans ⟨fun h => ⟨hlock, .inr h⟩, fun h => h.2.resolve_left hzero⟩

/-- A word is never too short to be a command. -/
theorem decode_ne_short (w : Word) : decode w ≠ .error .short := by
  unfold decode
  split_ifs <;> simp [decodeOpcE_ne_error]

theorem commandWrite_illegal {w : Word} (h : decode w = .error .illegal) (s : State) :
    commandWrite w s = illegalCommand s := by rw [commandWrite, h]

theorem commandWrite_malformedLock {w : Word} (h : decode w = .error .malformedLock) (s : State) :
    commandWrite w s = .next s.setLockviol := by rw [commandWrite, h]; rfl

/-- Settles O4: by the branches of the decoder, and by the meanings of the two kinds of refused word. -/
theorem illegalAndMalformedWords : Obligations.IllegalAndMalformedWords := by
  intro w
  refine ⟨?_, decode_malformedLock_iff, decode_ne_short w, fun h => ?_, fun h s hb hf => ?_, fun h s => ?_⟩
  · rw [decode_illegal_iff]
    bv_omega
  · exact (wf_and_encode_of_decode h).2.symm
  · rw [commandWrite_illegal h, illegalCommand, engineGate_open _ hb hf]
    simp [State.raiseError, ErrorKind.code, ErrorKind.fatal, hb, hf]
  · exact commandWrite_malformedLock h s

end Sys2Proof.Machine

/-! ### The tests of the accept step, and the stages behind an atomic accept -/

namespace Sys2Proof.Machine

/-! #### The order of the tests -/

/-- The words that `BUSY = 1` drops are those that go through the tests of the engine. -/
theorem commandWrite_engineGate {w : Word} (h : droppedWhileBusy w = true) (s : State) :
    ∃ k, commandWrite w s = engineGate s k := by
  cases hw : decode w with
  | ok i =>
    rw [commandWrite_decoded hw]
    cases i with
    | nop | sreset | lockTry | lockRel => simp [droppedWhileBusy, hw] at h
    | calld | rawld | comp | clrerr => exact ⟨_, rfl⟩
  | error e =>
    cases e with
    | illegal => exact ⟨_, commandWrite_illegal hw s⟩
    | malformedLock => simp [droppedWhileBusy, hw] at h
    | short => exact absurd hw (decode_ne_short w)

/-- Settles O21: the words outside the engine's tests by their meanings, the others by the outcomes of the
tests. -/
theorem acceptFollowsTestOrder : Obligations.AcceptFollowsTestOrder := by
  intro w s
  refine ⟨fun a h => ?_, fun a h => ?_, fun h => commandWrite_malformedLock h s,
    fun h => commandWrite_decoded h s, fun h => commandWrite_decoded h s, fun h => ?_⟩
  · have ha : agentOk a = true := (wf_and_encode_of_decode h).1
    rw [commandWrite_decoded h, exec, execLockTry, if_pos ha]
    rfl
  · have ha : agentOk a = true := (wf_and_encode_of_decode h).1
    rw [commandWrite_decoded h, exec, execLockRel, if_pos ha, State.releaseLock]
    simp only [Bool.and_eq_true, beq_iff_eq]
    rfl
  · obtain ⟨k, gate⟩ := commandWrite_engineGate h s
    refine ⟨fun hb => gate.trans (engineGate_busy k hb), fun hb hf => gate.trans (engineGate_failed k hb hf),
      fun hb hf => ?_⟩
    have passed {k : Host.Outcome State Fault Refusal} (hw : commandWrite w s = engineGate s k) :
        commandWrite w s = k := hw.trans (engineGate_open k hb hf)
    exact ⟨fun hw => passed (commandWrite_illegal hw s), fun hw => passed (commandWrite_decoded hw s),
      fun hw => passed (commandWrite_decoded hw s), fun hw => passed (commandWrite_decoded hw s),
      fun hw => passed (commandWrite_decoded hw s)⟩

/-! #### The stages behind an atomic accept -/

/-- Turns given to the sequencer behind the end of a command change nothing. -/
theorem sequencerTurns_past_end {m n : Nat} {s t : State} (hmn : m ≤ n)
    (h : sequencerTurns m s = .next t) (ht : t.flags.busy = false) : sequencerTurns n s = .next t := by
  induction m generalizing n s with
  | zero => cases h; exact sequencerTurns_idle n ht
  | succ m ih =>
    obtain ⟨n, rfl⟩ := Nat.exists_eq_add_of_lt hmn
    simp only [sequencerTurns] at h ⊢
    cases hq : sequencerTurn s with
    | next u => simp only [hq] at h ⊢; exact ih (by omega) h
    | fault f => simp [hq] at h
    | refused r => simp [hq] at h

/-- With `STAGE_ATOMIC` a command ends in its accept step, after at most the turns its first stage has left
(30_encoding.md R103). -/
theorem launch_atomic_ends {s : State} {m : Nat} (ha : s.cfg.stageAtomic = true)
    (hb : s.flags.busy = true) (hi : s.stage ≠ .idle) (hleft : s.stage.turnsLeft ≤ m) (hm : m ≤ maxStages) :
    ∃ (n : Nat) (t : State), n ≤ m ∧ launch s = .next t ∧ t.flags.busy = false ∧
      sequencerTurns n s = .next t := by
  obtain ⟨n, t, hn, ht, hend⟩ := sequencerTurns_end hb hi hleft
  exact ⟨n, t, hn, (launch_atomic ha).trans (sequencerTurns_past_end (hn.trans hm) ht hend), hend, ht⟩

/-- Settles O24: each accept launches its first stage, whose turns the atomic accept takes at once. -/
theorem atomicCommandsEndWhereStagedOnesDo : Obligations.AtomicCommandsEndWhereStagedOnesDo := by
  intro s ha hb hf
  refine ⟨fun hc => ?_, fun hc => ?_, fun hc hr => ?_⟩
  · have accepted : exec .calld s = launch (s.accept .calParse) := by
      rw [exec, execCalld, engineGate_open _ hb hf, acceptCalld, if_neg (by simp [hc])]
    rw [accepted]
    exact launch_atomic_ends ha rfl nofun le_rfl (by decide)
  · have accepted : exec .rawld s = launch s.startRawld := by
      rw [exec, execRawld, engineGate_open _ hb hf, acceptRawld, if_pos hc]
    rw [accepted]
    exact launch_atomic_ends ha rfl nofun le_rfl (by decide)
  · have accepted : exec .comp s = launch s.startComp := by
      rw [exec, execComp, engineGate_open _ hb hf, acceptComp, if_neg (by simp [hc]), if_neg (by simp [hr])]
    rw [accepted]
    exact launch_atomic_ends ha rfl nofun le_rfl (by decide)

end Sys2Proof.Machine

/-! ### The lines of a host thread -/

namespace Sys2Proof.Machine

section Lines
variable {s t u : State} {rest : List Event} {k : Nat} {th : Thread} {l : Line} {ls : List Line}

/-- The step of a host thread performs the thread's next line. -/
theorem step_thread (hin : s.env.inputs = .thread k :: rest) (hth : s.env.threads[k]? = some th)
    (hprog : th.prog = l :: ls) : step s = performLine k th l ls (s.withInputs rest) := by
  simp [step, hin, perform, threadTurn, hth, hprog]

/-- A line with a window access goes on with the response. -/
theorem performLine_access {a : Access} (hl : l.access = some a) (ha : hostAccess a u = .next t) :
    performLine k th l ls u = .next (t.withThread k (th.resume l ls t.env.resp)) := by
  cases l with
  | bus op => cases hl
  | _ => simp only [performLine, hl, ha]

/-- The command line of `i` runs `i` (30_encoding.md R104). -/
theorem hostAccess_encode {i : Instr} (h : i.wf = true) (s : State) :
    hostAccess (.write 0 4 (encode i)) s = exec i (s.withResp .ack) :=
  (memWrite_command s _).trans (commandWrite_decoded (decode_encode h) _)

theorem windowBytes_withInputs (s : State) (es : List Event) (off n : Nat) :
    windowBytes (s.withInputs es) off n = windowBytes s off n := by
  induction n generalizing off with
  | zero => rfl
  | succ n ih => rw [windowBytes, windowBytes, ih]; rfl

/-- The inputs are not in the window. -/
theorem memRead_withInputs (s : State) (es : List Event) (off n : Nat) :
    memRead (s.withInputs es) off n = memRead s off n := by
  rw [memRead, memRead, windowBytes_withInputs]

theorem hostAccess_read {off n : Nat} {v : Word} (h : memRead s off n = some v) :
    hostAccess (.read off n) s = .next (s.withResp (.value n v)) := by
  simp [hostAccess, readResponse, h]

theorem hostAccess_read_busError {off n : Nat} (h : memRead s off n = none) :
    hostAccess (.read off n) s = .next (s.withResp .busError) := by
  simp [hostAccess, readResponse, h]

/-- `WAIT` reads again as long as bit 0 of the word read is set (30_encoding.md R105). -/
theorem resume_wait (n : Nat) (v : Word) : th.resume .wait ls (.value n v) =
    th.took v (if v.getLsbD 0 then .wait :: ls else ls) :=
  (apply_ite (th.took v) _ _ _).symm

end Lines

/-- Settles O6: the step performs the line, the line its access, and the thread goes on behind it. -/
theorem stepRunsThreadLine : Obligations.StepRunsThreadLine := by
  refine ⟨fun s t u rest k th l ls hin hth hprog hu => ?_, fun s rest a op hin => ?_⟩
  · rw [step_thread hin hth hprog, ← hu]
    have read (off : Nat) : memRead u off 4 = memRead s off 4 := hu ▸ memRead_withInputs s rest off 4
    refine ⟨fun i hl hwf h => ?_, fun off v hl h => ?_, fun off v hl h => ?_, fun off v hl h => ?_,
      fun off v hl h => ?_, fun off hl h => ?_, fun a hl h => ?_, fun a n hl h => ?_, fun op hl => ?_⟩ <;>
      subst hl
    · exact performLine_access rfl ((hostAccess_encode hwf u).trans h)
    · exact performLine_access rfl h
    · exact performLine_access rfl h
    · exact performLine_access rfl h
    · exact performLine_access rfl (hostAccess_read ((read off).trans h))
    · exact performLine_access rfl (hostAccess_read_busError ((read off).trans h))
    · exact performLine_access rfl h
    · exact performLine_access rfl h
    · rw [hu]; rfl
  · rw [step, hin]
    rfl

/-- Settles O60: the line reads `STATUS`, whose bit 0 is `BUSY`, and the thread turns there. -/
theorem waitReturnsWhenNotBusy : Obligations.WaitReturnsWhenNotBusy := by
  intro s rest k th ls hin hth hprog
  have status : memRead (s.withInputs rest) 0x04 4 = some (statusWord s.flags s.stage) :=
    memRead_register _ rfl (by decide) (by decide)
  have busy : (statusWord s.flags s.stage).getLsbD 0 = s.flags.busy := (statusAndLockLayout.1 _ _).1
  have hk : k < s.env.threads.length := (List.getElem?_eq_some_iff.mp hth).1
  refine ⟨_, th.resume .wait ls (.value 4 (statusWord s.flags s.stage)),
    (step_thread hin hth hprog).trans (performLine_access rfl (hostAccess_read status)),
    by simp [hk], rfl, rfl, ?_⟩
  rw [resume_wait, busy]
  exact ⟨rfl, fun hb => if_neg (by simp [hb]), fun hb => if_pos hb⟩

end Sys2Proof.Machine

/-! ### The engine commands in the staged model, and `CALLD` from its accept to its commit -/

namespace Sys2Proof.Machine

/-! #### What an engine command but `SRESET` does in its accept step -/

/-- The operation that `NOP`, `CALLD`, `RAWLD`, `COMP` or `CLRERR` comes to in its accept step, where the
stages stand apart from it (30_encoding.md R99). -/
inductive AcceptOp (s : State) : Instr → State → Prop where
  | unchanged {i : Instr} : AcceptOp s i s
  | dropped {i : Instr} : AcceptOp s i s.setCmdovr
  | refused {i : Instr} (e : ErrorKind) (hi : ¬(i = .nop ∨ i = .clrerr)) (hf : e.fatal = false) :
    AcceptOp s i (s.raiseError e)
  | calld : AcceptOp s .calld (s.accept .calParse)
  | rawld : AcceptOp s .rawld s.startRawld
  | comp : AcceptOp s .comp s.startComp
  | clrerr : AcceptOp s .clrerr s.clearError

section Accept
variable {i : Instr} {s t : State}

theorem engineGate_acceptOp {k : Host.Outcome State Fault Refusal} (hk : k = .next t → AcceptOp s i t)
    (h : engineGate s k = .next t) : AcceptOp s i t := by
  rcases engineGate_cases s k with ⟨-, e⟩ | ⟨-, -, e⟩ | ⟨-, -, e⟩ <;> rw [e] at h
  · cases h; exact .dropped
  · cases h; exact .unchanged
  · exact hk h

/-- In the staged model a command answers the state it starts from. -/
theorem AcceptOp.of_launch {u : State} (hu : AcceptOp s i u) (h : launch u = .next t)
    (ha : u.cfg.stageAtomic = false) : AcceptOp s i t := by
  rw [launch_staged ha] at h
  cases h
  exact hu

theorem exec_acceptOp (hi : i = .nop ∨ i = .calld ∨ i = .rawld ∨ i = .comp ∨ i = .clrerr)
    (ha : s.cfg.stageAtomic = false) (h : exec i s = .next t) : AcceptOp s i t := by
  rcases hi with rfl | rfl | rfl | rfl | rfl
  · cases h; exact .unchanged
  · refine engineGate_acceptOp (fun hk => ?_) h
    rcases acceptCalld_next hk with ⟨-, rfl⟩ | ⟨-, hl⟩
    · exact .refused _ nofun rfl
    · exact AcceptOp.calld.of_launch hl ha
  · refine engineGate_acceptOp (fun hk => ?_) h
    rcases acceptRawld_next hk with ⟨-, rfl⟩ | ⟨-, hl⟩
    · exact .refused _ nofun rfl
    · exact AcceptOp.rawld.of_launch hl ha
  · refine engineGate_acceptOp (fun hk => ?_) h
    rcases acceptComp_next hk with ⟨-, rfl⟩ | ⟨-, -, rfl⟩ | ⟨-, -, hl⟩
    · exact .refused _ nofun rfl
    · exact .refused _ nofun rfl
    · exact AcceptOp.comp.of_launch hl ha
  · exact engineGate_acceptOp (fun hk => by cases hk; exact .clrerr) h

/-- What no accept touches, `FAILED` among it: a refusal is never fatal (60_exceptions.md R233). -/
theorem AcceptOp.frame (h : AcceptOp s i t) :
    t.cal = s.cal ∧ t.mem = s.mem ∧ t.lock = s.lock ∧ t.tmp = s.tmp ∧ t.cfg = s.cfg ∧ t.env = s.env ∧
      t.free = s.free ∧ t.flags.calValid = s.flags.calValid ∧ t.flags.failed = s.flags.failed := by
  cases h with
  | refused e _ hf => simp [hf]
  | _ => exact ⟨rfl, rfl, rfl, rfl, rfl, rfl, rfl, rfl, rfl⟩

theorem AcceptOp.raw_eq (h : AcceptOp s i t) (hi : i ≠ .rawld) :
    t.raw = s.raw ∧ t.flags.rawValid = s.flags.rawValid := by
  cases h with
  | rawld => exact absurd rfl hi
  | _ => exact ⟨rfl, rfl⟩

theorem AcceptOp.results_eq (h : AcceptOp s i t) (hi : i ≠ .comp) :
    t.res = s.res ∧ t.flags.resValid = s.flags.resValid ∧ t.flags.zden = s.flags.zden ∧
      t.flags.ovf = s.flags.ovf := by
  cases h with
  | comp => exact absurd rfl hi
  | _ => exact ⟨rfl, rfl, rfl, rfl⟩

theorem AcceptOp.lockviol_eq (h : AcceptOp s i t) (hi : i ≠ .clrerr) :
    t.flags.lockviol = s.flags.lockviol := by
  cases h with
  | clrerr => exact absurd rfl hi
  | _ => rfl

theorem AcceptOp.stage_eq (h : AcceptOp s i t) (hi : i = .nop ∨ i = .clrerr) :
    t.stage = s.stage ∧ t.flags.busy = s.flags.busy := by
  cases h with
  | refused e hn _ => exact absurd hi hn
  | calld | rawld | comp => simp at hi
  | _ => exact ⟨rfl, rfl⟩

end Accept

/-- Settles O22: by what each operation an accept step can come to leaves alone. -/
theorem engineCommandFrame : Obligations.EngineCommandFrame := by
  intro i s t hi ha h
  have op : AcceptOp s i t := exec_acceptOp hi ha h
  obtain ⟨hcal, hmem, hlock, htmp, hcfg, henv, hfree, hvalid, hfailed⟩ := op.frame
  exact ⟨hcal, fun a => by rw [hmem], hlock, htmp, hcfg, henv, hfree, hvalid, hfailed,
    op.raw_eq, op.results_eq, op.lockviol_eq, op.stage_eq⟩

/-! #### The accept and the stages of `CALLD` -/

section Calibration
variable {s : State}

/-- An error entry of a kind that is not fatal, from a state in which the engine takes commands. -/
theorem raiseError_of_open {e : ErrorKind} (he : e.fatal = false) (hb : s.flags.busy = false)
    (hf : s.flags.failed = false) : s.raiseError e =
      { s with flags := { s.flags with done := false, err := true }, cause := e.code, stage := .idle } := by
  simp [State.raiseError, he, hb, hf]

theorem exec_calld_locked (hb : s.flags.busy = false) (hf : s.flags.failed = false)
    (hc : s.flags.calValid = true) : exec .calld s = .next (s.raiseError .calLocked) :=
  (engineGate_open _ hb hf).trans (if_pos hc)

theorem exec_calld_started (hb : s.flags.busy = false) (hf : s.flags.failed = false)
    (hc : s.flags.calValid = false) (ha : s.cfg.stageAtomic = false) :
    exec .calld s = .next (s.accept .calParse) :=
  calc exec .calld s = acceptCalld s := engineGate_open _ hb hf
    _ = launch (s.accept .calParse) := if_neg (by simp [hc])
    _ = .next (s.accept .calParse) := launch_staged ha

theorem sequencerStep_calParse (h : s.stage = .calParse) : sequencerStep s = .next (stageCalParse s) := by
  rw [sequencerStep, h]

theorem sequencerStep_calCheck (h : s.stage = .calCheck) : sequencerStep s = .next (stageCalCheck s) := by
  rw [sequencerStep, h]

theorem sequencerStep_calCommit (h : s.stage = .calCommit) : sequencerStep s = .next (stageCalCommit s) := by
  rw [sequencerStep, h]

/-- The tests of `CAL_CHECK` on the bytes of the buffer and the temporaries (40_calibration.md R123). -/
theorem calInvalid_iff : calInvalid s = true ↔
    (∀ i, i < 24 → Memory.read s.mem (0x10 + i) = 0xFF) ∨ s.tmp.tcal.t1 = 0 ∨ s.tmp.tcal.p1 = 0 := by
  simp only [calInvalid, Bool.or_eq_true, beq_iff_eq, calbufAllFF_iff, or_assoc]
  rfl

theorem stageCalCheck_invalid (h : calInvalid s = true) :
    stageCalCheck s = (s.raiseError .invalidCalibration).forgetTemps := if_pos h

theorem stageCalCheck_valid (h : ¬calInvalid s = true) :
    stageCalCheck s = { s with stage := .calCommit } := if_neg h

theorem calPair_eq_zero_iff {m : List Host.Cell} {k : Nat} :
    calPair m k = 0 ↔ calbuf m (2 * k + 1) = 0 ∧ calbuf m (2 * k) = 0 :=
  append_eq_append_iff (x' := 0) (y' := 0)

/-- From `CAL_PARSE` with a valid block in the buffer, three turns end with the commit of its parse. -/
theorem sequencerTurns_calld (hb : s.flags.busy = true) (hs : s.stage = .calParse)
    (hv : ¬calInvalid (stageCalParse s) = true) :
    sequencerTurns 3 s = .next (stageCalCommit { stageCalParse s with stage := .calCommit }) := by
  have parse : sequencerTurn s = .next (stageCalParse s) :=
    (sequencerTurn_busy hb).trans (sequencerStep_calParse hs)
  have check : sequencerTurn (stageCalParse s) = .next { stageCalParse s with stage := .calCommit } := by
    rw [sequencerTurn_busy (s := stageCalParse s) hb, sequencerStep_calCheck rfl, stageCalCheck_valid hv]
  have commit : sequencerTurn { stageCalParse s with stage := .calCommit } =
      .next (stageCalCommit { stageCalParse s with stage := .calCommit }) :=
    (sequencerTurn_busy (s := { stageCalParse s with stage := .calCommit }) hb).trans
      (sequencerStep_calCommit rfl)
  rw [sequencerTurns_succ 2 parse, sequencerTurns_succ 1 check, sequencerTurns_succ 0 commit,
    sequencerTurns]

end Calibration

/-- Settles O14: the open gate, then the one test of `CALLD`. -/
theorem calldAccept : Obligations.CalldAccept := by
  intro s hb hf
  refine ⟨fun hc => ?_, fun hc ha => exec_calld_started hb hf hc ha⟩
  rw [exec_calld_locked hb hf hc, raiseError_of_open rfl hb hf]
  rfl

/-- Settles O29: the stage parses the buffer by position. -/
theorem calParseIsPositional : Obligations.CalParseIsPositional := fun s hs =>
  ⟨parseCal s.mem, sequencerStep_calParse hs, parseCal_get s.mem⟩

/-- Settles O30: by the outcome of the tests. -/
theorem calCheckRejectsDegenerateBlocks : Obligations.CalCheckRejectsDegenerateBlocks := by
  intro s hs
  rw [sequencerStep_calCheck hs, ← calInvalid_iff]
  refine ⟨fun h => ⟨freeTemps s.free, s.free + 1, ?_⟩, fun h => by rw [stageCalCheck_valid h]⟩
  rw [stageCalCheck_invalid h]
  simp [State.forgetTemps, State.raiseError, ErrorKind.fatal, ErrorKind.code]

/-- Settles O31: the stage copies the set, finishes and forgets the temporaries. -/
theorem calCommitLoadsTheSet : Obligations.CalCommitLoadsTheSet := fun s hs =>
  ⟨freeTemps s.free, s.free + 1, sequencerStep_calCommit hs⟩

/-- Settles O35: no test of `CAL_CHECK` holds of the parsed buffer, so the three turns after the accept
commit the parse. -/
theorem calldLoadsValidBlock : Obligations.CalldLoadsValidBlock := by
  intro s hb hf hc ha hff ht hp
  have valid : ¬calInvalid (stageCalParse (s.accept .calParse)) = true := by
    rw [calInvalid_iff]
    rintro (hall | h0 | h0)
    · obtain ⟨i, hi, hne⟩ := hff
      exact hne (hall i hi)
    · obtain ⟨high, low⟩ := calPair_eq_zero_iff.mp h0
      exact ht.elim (· low) (· high)
    · obtain ⟨high, low⟩ := calPair_eq_zero_iff.mp h0
      exact hp.elim (· low) (· high)
  exact ⟨_, _, exec_calld_started hb hf hc ha, sequencerTurns_calld rfl rfl valid,
    rfl, rfl, rfl, rfl, rfl, rfl, fun _ => rfl, rfl, rfl, rfl⟩

end Sys2Proof.Machine

/-! ### `RAWLD` from its accept to its commit -/

namespace Sys2Proof.Machine

section RawLoad
variable {s t : State}

/-! #### The accept -/

theorem exec_rawld_notReady (hb : s.flags.busy = false) (hf : s.flags.failed = false)
    (hc : s.flags.calValid = false) : exec .rawld s = .next (s.raiseError .notReady) :=
  (engineGate_open _ hb hf).trans (if_neg (by simp [hc]))

theorem exec_rawld_started (hb : s.flags.busy = false) (hf : s.flags.failed = false)
    (hc : s.flags.calValid = true) (ha : s.cfg.stageAtomic = false) :
    exec .rawld s = .next s.startRawld :=
  calc exec .rawld s = acceptRawld s := engineGate_open _ hb hf
    _ = launch s.startRawld := if_pos hc
    _ = .next s.startRawld := launch_staged ha

/-! #### The triplets and the sentinels -/

/-- No bit of the three bytes is lost above the 20 of a raw count (41_raw_decode.md R132). -/
theorem rawTriplet_toNat (m : List Host.Cell) (i : Nat) : (rawTriplet m i).toNat =
    ((rawbuf m i).toNat <<< 12) ||| ((rawbuf m (i + 1)).toNat <<< 4) |||
      ((rawbuf m (i + 2)).toNat >>> 4) := by
  have b0 : (rawbuf m i).toNat <<< 12 < 2 ^ 20 := Nat.shiftLeft_lt (rawbuf m i).isLt
  have b1 : (rawbuf m (i + 1)).toNat <<< 4 < 2 ^ 20 :=
    (Nat.shiftLeft_lt (rawbuf m (i + 1)).isLt).trans (by decide)
  have b2 : (rawbuf m (i + 2)).toNat >>> 4 < 2 ^ 20 :=
    ((Nat.shiftRight_le _ _).trans_lt (rawbuf m (i + 2)).isLt).trans (by decide)
  exact Nat.mod_eq_of_lt (Nat.or_lt_two_pow (Nat.or_lt_two_pow b0 b1) b2)

theorem isSentinel_iff {r : Raw20} : isSentinel r = true ↔ r = 0x00000 ∨ r = 0x80000 := by
  simp [isSentinel]

/-- A count that is no sentinel is not 0 (41_raw_decode.md R136). -/
theorem one_le_of_not_sentinel {r : Raw20} (h : isSentinel r = false) : 1 ≤ r.toNat := by
  rw [Nat.one_le_iff_ne_zero]
  intro h0
  have zero : r = 0x00000 := BitVec.eq_of_toNat_eq h0
  simp [isSentinel_iff.mpr (.inl zero)] at h

/-! #### The stages -/

theorem sequencerStep_rawDecode (h : s.stage = .rawDecode) : sequencerStep s = .next (stageRawDecode s) := by
  rw [sequencerStep, h]

theorem sequencerStep_rawCheck (h : s.stage = .rawCheck) : sequencerStep s = .next (stageRawCheck s) := by
  rw [sequencerStep, h]

theorem sequencerStep_rawCommit (h : s.stage = .rawCommit) : sequencerStep s = .next (stageRawCommit s) := by
  rw [sequencerStep, h]

/-- The test of `RAW_CHECK` on the two temporaries (41_raw_decode.md R133). -/
theorem rawSentinel_iff : (isSentinel s.tmp.tt || isSentinel s.tmp.tp) = true ↔
    s.tmp.tt = 0x00000 ∨ s.tmp.tt = 0x80000 ∨ s.tmp.tp = 0x00000 ∨ s.tmp.tp = 0x80000 := by
  rw [Bool.or_eq_true, isSentinel_iff, isSentinel_iff, or_assoc]

theorem stageRawCheck_sentinel (h : (isSentinel s.tmp.tt || isSentinel s.tmp.tp) = true) :
    stageRawCheck s = (s.raiseError .invalidRawReading).forgetTemps := if_pos h

theorem stageRawCheck_good (h : ¬(isSentinel s.tmp.tt || isSentinel s.tmp.tp) = true) :
    stageRawCheck s = { s with stage := .rawCommit } := if_neg h

theorem sequencerTurns_step (n : Nat) (hb : s.flags.busy = true) (h : sequencerStep s = .next t) :
    sequencerTurns (n + 1) s = sequencerTurns n t :=
  sequencerTurns_succ n ((sequencerTurn_busy hb).trans h)

/-- From `RAW_DECODE` with no sentinel in the buffer, three turns end with the commit of the two counts. -/
theorem sequencerTurns_rawld (hb : s.flags.busy = true) (hs : s.stage = .rawDecode)
    (hp : isSentinel (rawTriplet s.mem 0) = false) (ht : isSentinel (rawTriplet s.mem 3) = false) :
    sequencerTurns 3 s = .next (stageRawCommit { stageRawDecode s with stage := .rawCommit }) := by
  have good : ¬(isSentinel (stageRawDecode s).tmp.tt || isSentinel (stageRawDecode s).tmp.tp) = true := by
    simp [stageRawDecode, hp, ht]
  have check : sequencerStep (stageRawDecode s) = .next { stageRawDecode s with stage := .rawCommit } := by
    rw [sequencerStep_rawCheck rfl, stageRawCheck_good good]
  calc sequencerTurns 3 s = sequencerTurns 2 (stageRawDecode s) :=
        sequencerTurns_step 2 hb (sequencerStep_rawDecode hs)
    _ = sequencerTurns 1 { stageRawDecode s with stage := .rawCommit } := sequencerTurns_step 1 hb check
    _ = .next (stageRawCommit { stageRawDecode s with stage := .rawCommit }) :=
        sequencerTurns_step 0 hb (sequencerStep_rawCommit rfl)

end RawLoad

/-- Settles O36: no test of `RAW_CHECK` holds of the decoded counts, so the three turns after the accept
commit them. -/
theorem rawldLoadsGoodBurst : Obligations.RawldLoadsGoodBurst := by
  intro s hb hf hc ha hp ht
  exact ⟨_, _, exec_rawld_started hb hf hc ha, sequencerTurns_rawld rfl rfl hp ht,
    rfl, rfl, rfl, rfl, rfl, rfl, fun _ => rfl, rfl, rfl, rfl,
    one_le_of_not_sentinel ht, one_le_of_not_sentinel hp⟩

/-- Settles O32: the stage assembles the triplets at offsets 0 and 3 of the buffer, in full width. -/
theorem rawDecodeAssemblesTriplets : Obligations.RawDecodeAssemblesTriplets := fun s hs =>
  ⟨rawTriplet s.mem 0, rawTriplet s.mem 3, sequencerStep_rawDecode hs,
    rawTriplet_toNat s.mem 0, rawTriplet_toNat s.mem 3⟩

/-- Settles O15: the open gate, then the one test of `RAWLD`. -/
theorem rawldAccept : Obligations.RawldAccept := by
  intro s hb hf
  refine ⟨fun hc => ?_, fun hc ha => exec_rawld_started hb hf hc ha⟩
  rw [exec_rawld_notReady hb hf hc, raiseError_of_open rfl hb hf]
  rfl

/-- Settles O33: by the outcome of the test. -/
theorem rawCheckRejectsSentinels : Obligations.RawCheckRejectsSentinels := by
  intro s hs
  rw [sequencerStep_rawCheck hs, ← rawSentinel_iff]
  refine ⟨fun h => ⟨freeTemps s.free, s.free + 1, ?_⟩, fun h => by rw [stageRawCheck_good h]⟩
  rw [stageRawCheck_sentinel h]
  simp [State.forgetTemps, State.raiseError, ErrorKind.fatal, ErrorKind.code]

/-- Settles O34: the stage copies the two counts, finishes and forgets the temporaries. -/
theorem rawCommitLoadsThePair : Obligations.RawCommitLoadsThePair := fun s hs =>
  ⟨freeTemps s.free, s.free + 1, sequencerStep_rawCommit hs⟩

end Sys2Proof.Machine

/-! ### `COMP` from its accept to its commit -/

namespace Sys2Proof.Machine

section Compensate
variable {s : State}

/-! #### The accept -/

theorem exec_comp_notReady (hb : s.flags.busy = false) (hf : s.flags.failed = false)
    (hc : s.flags.calValid = false) : exec .comp s = .next (s.raiseError .notReady) :=
  (engineGate_open _ hb hf).trans (if_pos (by simp [hc]))

theorem exec_comp_rawMissing (hb : s.flags.busy = false) (hf : s.flags.failed = false)
    (hc : s.flags.calValid = true) (hr : s.flags.rawValid = false) :
    exec .comp s = .next (s.raiseError .rawMissing) :=
  calc exec .comp s = acceptComp s := engineGate_open _ hb hf
    _ = .next (s.raiseError .rawMissing) := by simp [acceptComp, hc, hr]

theorem exec_comp_started (hb : s.flags.busy = false) (hf : s.flags.failed = false)
    (hc : s.flags.calValid = true) (hr : s.flags.rawValid = true) (ha : s.cfg.stageAtomic = false) :
    exec .comp s = .next s.startComp :=
  calc exec .comp s = acceptComp s := engineGate_open _ hb hf
    _ = launch s.startComp := by simp [acceptComp, hc, hr]
    _ = .next s.startComp := launch_staged ha

/-! #### The stages -/

theorem sequencerStep_compCommit (h : s.stage = .compCommit) :
    sequencerStep s = .next (stageCompCommit s) := by
  rw [sequencerStep, h]

/-- The guard on a zero denominator term (42_compensation.md R161). -/
theorem pipePS7_zero {p : Pipe} (h : p.tmp.x = 0) :
    pipePS7 p = { p with tmp := { p.tmp with p := 0 }, zden := true, stage := .fcvt } := if_pos h

theorem pipePS7_nonzero {p : Pipe} (h : p.tmp.x ≠ 0) : pipePS7 p = { p with stage := .pS8 } := if_neg h

theorem stageDatapath_pS7 (h : s.stage = .pS7) : stageDatapath s = s.withPipe (pipePS7 s.pipe) := by
  simp only [stageDatapath, pipeStep, State.pipe, h]

theorem sequencerTurns_compCommit (n : Nat) (hb : s.flags.busy = true) (h : s.stage = .compCommit) :
    sequencerTurns (n + 1) s = .next (stageCompCommit s) :=
  (sequencerTurns_step n hb (sequencerStep_compCommit h)).trans (sequencerTurns_idle n rfl)

/-- A run of `COMP` whose datapath comes to `COMP_COMMIT` within `n` stages has committed what the datapath
holds there after one turn more. -/
theorem sequencerTurns_comp {n : Nat} (hb : s.flags.busy = true) (hs : s.stage.command = some .comp)
    (hn : (pipeRun s.compIn n s.pipe).stage = .compCommit) :
    sequencerTurns (n + 1) s = .next (stageCompCommit (s.withPipe (pipeRun s.compIn n s.pipe))) := by
  induction n generalizing s with
  | zero => exact sequencerTurns_compCommit 0 hb hn
  | succ n ih =>
    by_cases hd : s.stage = .compCommit
    · rw [← pipeRun_commit_unique s.compIn s.pipe (m := 0) hd hn]
      exact sequencerTurns_compCommit (n + 1) hb hd
    · have hdata : s.stage.isDatapath = true := Stage.isDatapath_iff.mpr ⟨hs, hd⟩
      calc sequencerTurns (n + 1 + 1) s = sequencerTurns (n + 1) (stageDatapath s) :=
            sequencerTurns_step (n + 1) hb (sequencerStep_datapath hdata)
        _ = _ := ih (s := stageDatapath s) hb (pipeStep_command s.compIn (p := s.pipe) hdata) hn

end Compensate

/-- Settles O16: the open gate, then the two tests of `COMP` in their order. -/
theorem compAccept : Obligations.CompAccept := by
  intro s hb hf
  refine ⟨fun hc => ?_, fun hc hr => ?_, fun hc hr ha => exec_comp_started hb hf hc hr ha⟩
  · rw [exec_comp_notReady hb hf hc, raiseError_of_open rfl hb hf]
    rfl
  · rw [exec_comp_rawMissing hb hf hc hr, raiseError_of_open rfl hb hf]
    rfl

/-- Settles O40: by the two outcomes of the guard. -/
theorem zeroDenominatorGuard : Obligations.ZeroDenominatorGuard := by
  intro s hs
  rw [sequencerStep_datapath (by rw [hs]; rfl), stageDatapath_pS7 hs]
  refine ⟨fun h => ?_, fun h => ?_⟩
  · rw [pipePS7_zero (p := s.pipe) h]
    rfl
  · rw [pipePS7_nonzero (p := s.pipe) h]
    rfl

/-- Settles O41: the stage copies the six results, consumes the raw pair, finishes and forgets the
temporaries. -/
theorem compCommitWritesResults : Obligations.CompCommitWritesResults := fun s hs =>
  ⟨freeTemps s.free, s.free + 1, sequencerStep_compCommit hs⟩

/-- From the accept of `COMP` on, the 18 turns of R102, or 13 where the guard fires, commit a datapath that
holds what `Compensate` returns. -/
theorem sequencerTurns_startComp (s : State) : ∃ p : Pipe, HoldsCompensate s.compIn p ∧
    sequencerTurns (if (compensate s.compIn).zden then 13 else 18) s.startComp =
      .next (stageCompCommit (s.startComp.withPipe p)) := by
  have holds := pipeRun_compensate s.compIn s.tmp
  have count : (if (compensate s.compIn).zden then 13 else 18) =
      (if (compensate s.compIn).zden then 12 else 17) + 1 := by
    split <;> rfl
  refine ⟨_, holds, ?_⟩
  rw [count]
  exact sequencerTurns_comp (s := s.startComp) rfl rfl holds.1

/-- Settles O42: from the accept on the datapath is on the trace that leads to `Compensate`, and the turn
after its last stage commits what it holds. -/
theorem compCommitsCompensate : Obligations.CompCommitsCompensate := by
  intro s hb hf hc hr ha
  obtain ⟨p, ⟨-, hres, hzden, hovf⟩, turns⟩ := sequencerTurns_startComp s
  exact ⟨_, _, exec_comp_started hb hf hc hr ha, turns, hres, hzden, hovf,
    rfl, rfl, rfl, rfl, rfl, rfl, rfl, rfl, fun _ => rfl, rfl⟩

end Sys2Proof.Machine

/-! ### The integer primitives against exact arithmetic -/

namespace Sys2Proof.Machine

/-! #### An exact result and its 64-bit word -/

theorem fits64_iff {z : Int} : fits64 z = true ↔ -2 ^ 63 ≤ z ∧ z ≤ 2 ^ 63 - 1 := by
  rw [fits64, Bool.and_eq_true, decide_eq_true_eq, decide_eq_true_eq]
  rfl

/-- Every datapath value is in range. -/
theorem fits64_toInt (a : W64) : fits64 a.toInt = true := fits64_iff.mpr ⟨a.le_toInt, a.toInt_le⟩

theorem wrap_toInt_of_fits {z : Int} (h : fits64 z = true) : (wrap z).toInt = z := by
  obtain ⟨hlo, hhi⟩ := fits64_iff.mp h
  exact BitVec.toInt_ofInt_eq_self (by decide) hlo (Int.lt_of_le_sub_one hhi)

/-- Wrapping keeps the residue modulo `2^64` (00_scope.md R14). -/
theorem two_pow_64_dvd_wrap_sub (z : Int) : (2 ^ 64 : Int) ∣ (wrap z).toInt - z := by
  rw [wrap, BitVec.toInt_ofInt]
  exact Int.dvd_bmod_sub_self

/-- The result `r` of a primitive whose exact result is `z` is reduced modulo `2^64`, and `OVF` tells whether
it had to be (00_scope.md R14). -/
def WrapsAndFlags (r : Flagged) (z : Int) : Prop :=
  (2 ^ 64 : Int) ∣ (r.val.toInt - z) ∧ (r.ovf = true ↔ z < -2 ^ 63 ∨ 2 ^ 63 - 1 < z) ∧
    (r.ovf = false → r.val.toInt = z)

theorem exactResult_wrapsAndFlags (z : Int) : WrapsAndFlags (exactResult z) z := by
  refine ⟨two_pow_64_dvd_wrap_sub z, ?_, fun h => wrap_toInt_of_fits (by simpa [exactResult] using h)⟩
  rw [exactResult, Bool.not_eq_true', ← Bool.not_eq_true, fits64_iff, not_and_or, not_le, not_le]

theorem exactResult_of_fits {z : Int} (h : fits64 z = true) :
    (exactResult z).ovf = false ∧ (exactResult z).val.toInt = z :=
  ⟨by rw [exactResult, h]; rfl, wrap_toInt_of_fits h⟩

/-- Settles O45: the four primitives are the wrapped exact result with its overflow. -/
theorem primitivesWrapAndFlagOverflow : Obligations.PrimitivesWrapAndFlagOverflow := by
  rintro a b k r z (⟨rfl, rfl⟩ | ⟨rfl, rfl⟩ | ⟨rfl, rfl⟩ | ⟨-, rfl, rfl⟩)
  · exact exactResult_wrapsAndFlags _
  · exact exactResult_wrapsAndFlags _
  · exact exactResult_wrapsAndFlags _
  · rw [shl64, Nat.cast_pow, Nat.cast_ofNat]
    exact exactResult_wrapsAndFlags _

/-! #### The right shift and the division -/

/-- The right shift is the floor of the exact quotient, which is always in range (42_compensation.md R145). -/
theorem sra64_toInt (a : W64) (k : Nat) : (sra64 a k).val.toInt = a.toInt / 2 ^ k := by
  have floor : (a.sshiftRight k).toInt = a.toInt / ((2 ^ k : Nat) : Int) := by
    rw [BitVec.toInt_sshiftRight, Int.shiftRight_eq_div_pow]
  have fits : fits64 (a.toInt / ((2 ^ k : Nat) : Int)) = true := floor ▸ fits64_toInt _
  rw [sra64, Flagged.pure_val, wrap_toInt_of_fits fits, Nat.cast_pow, Nat.cast_ofNat]

theorem sdiv64_eq {a b : W64} (hb : b ≠ 0) : sdiv64 a b = exactResult (a.toInt.tdiv b.toInt) := if_neg hb

/-- Every truncated quotient but `INT_MIN / -1` is in range (42_compensation.md R146). -/
theorem fits64_tdiv {a b : W64} (h : ¬(a.toInt = -2 ^ 63 ∧ b.toInt = -1)) :
    fits64 (a.toInt.tdiv b.toInt) = true := by
  have operands : a ≠ BitVec.intMin 64 ∨ b ≠ -1#64 := by
    rw [← not_and_or]
    rintro ⟨rfl, rfl⟩
    exact h ⟨rfl, rfl⟩
  rw [← BitVec.toInt_sdiv_of_ne_or_ne a b operands]
  exact fits64_toInt _

theorem tdiv_nonneg_of_mul_nonneg {a b : Int} (h : 0 ≤ a * b) : 0 ≤ a.tdiv b := by
  rcases Int.mul_nonneg_iff.mp h with ⟨ha, hb⟩ | ⟨ha, hb⟩
  · exact Int.tdiv_nonneg ha hb
  · exact Int.tdiv_nonneg_of_nonpos_of_nonpos ha hb

theorem tdiv_nonpos_of_mul_nonpos {a b : Int} (h : a * b ≤ 0) : a.tdiv b ≤ 0 := by
  have opposite : 0 ≤ a.tdiv (-b) := tdiv_nonneg_of_mul_nonneg (by rwa [mul_neg, neg_nonneg])
  rwa [Int.tdiv_neg, neg_nonneg] at opposite

/-- Settles O46: the shift is the floor; the truncated quotient fits but for `INT_MIN / -1`. -/
theorem shiftFloorsAndDivisionTruncates : Obligations.ShiftFloorsAndDivisionTruncates := by
  refine ⟨fun a k _ => ?_, fun a b hb h => ?_, fun a b ha hb => ?_⟩
  · have pos : (0 : Int) < 2 ^ k := by positivity
    rw [sra64_toInt]
    exact ⟨rfl, Int.ediv_mul_le _ pos.ne', Int.lt_ediv_add_one_mul_self _ pos⟩
  · obtain ⟨hovf, hval⟩ := exactResult_of_fits (fits64_tdiv h)
    rw [sdiv64_eq hb, hovf, hval]
    exact ⟨rfl, Int.natAbs_tdiv _ _, tdiv_nonneg_of_mul_nonneg, tdiv_nonpos_of_mul_nonpos⟩
  · have hb0 : b ≠ 0 := by rintro rfl; cases hb
    rw [sdiv64_eq hb0, ha, hb]
    decide

end Sys2Proof.Machine

/-! ### The range of the fine temperature

Interval arithmetic on the primitives: from ranges of the operands to a range of the result, with no overflow
where that range is one of a datapath value. -/

namespace Sys2Proof.Machine

/-! #### Ranges of flagged values -/

/-- No primitive that led to the value overflowed, and the value lies in `lo..hi`. -/
def Flagged.Within (r : Flagged) (lo hi : Int) : Prop :=
  r.ovf = false ∧ lo ≤ r.val.toInt ∧ r.val.toInt ≤ hi

section Ranges
variable {x y : Flagged} {a b c d lo hi z : Int}

theorem exactResult_within (hlo : lo ≤ z) (hhi : z ≤ hi) (hmin : -2 ^ 63 ≤ lo) (hmax : hi ≤ 2 ^ 63 - 1) :
    (exactResult z).Within lo hi := by
  obtain ⟨hovf, hval⟩ := exactResult_of_fits (fits64_iff.mpr ⟨hmin.trans hlo, hhi.trans hmax⟩)
  exact ⟨hovf, hval.symm ▸ hlo, hval.symm ▸ hhi⟩

/-- Operands that carry no overflow leave a result as it is. -/
theorem Flagged.Within.after {r : Flagged} (h : r.Within lo hi) {o : Bool} (ho : o = false) :
    (r.after o).Within lo hi := by
  subst ho
  exact h

theorem Flagged.Within.add (hx : x.Within a b) (hy : y.Within c d) (hmin : -2 ^ 63 ≤ a + c)
    (hmax : b + d ≤ 2 ^ 63 - 1) : (x.add y).Within (a + c) (b + d) := by
  obtain ⟨hxo, hxl, hxh⟩ := hx
  obtain ⟨hyo, hyl, hyh⟩ := hy
  exact (exactResult_within (by omega) (by omega) hmin hmax).after (by rw [hxo, hyo]; rfl)

theorem Flagged.Within.sub (hx : x.Within a b) (hy : y.Within c d) (hmin : -2 ^ 63 ≤ a - d)
    (hmax : b - c ≤ 2 ^ 63 - 1) : (x.sub y).Within (a - d) (b - c) := by
  obtain ⟨hxo, hxl, hxh⟩ := hx
  obtain ⟨hyo, hyl, hyh⟩ := hy
  exact (exactResult_within (by omega) (by omega) hmin hmax).after (by rw [hxo, hyo]; rfl)

/-- A multiple of a value in an interval lies between the multiples of its ends. -/
theorem mul_mem_Icc_of_ends {e q : Int} (hq : q ∈ Set.Icc c d) (hc : e * c ∈ Set.Icc lo hi)
    (hd : e * d ∈ Set.Icc lo hi) : e * q ∈ Set.Icc lo hi := by
  rcases le_total 0 e with he | he
  · exact ⟨hc.1.trans (mul_le_mul_of_nonneg_left hq.1 he), (mul_le_mul_of_nonneg_left hq.2 he).trans hd.2⟩
  · exact ⟨hd.1.trans (mul_le_mul_of_nonpos_left hq.2 he), (mul_le_mul_of_nonpos_left hq.1 he).trans hc.2⟩

/-- A product over a box lies between its values at the corners. -/
theorem Flagged.Within.mul (hx : x.Within a b) (hy : y.Within c d)
    (corners : ∀ p ∈ [a, b], ∀ q ∈ [c, d], p * q ∈ Set.Icc lo hi)
    (hmin : -2 ^ 63 ≤ lo) (hmax : hi ≤ 2 ^ 63 - 1) : (x.mul y).Within lo hi := by
  obtain ⟨hxo, hxr⟩ := hx
  obtain ⟨hyo, hyr⟩ := hy
  have edge (p : Int) (hp : p ∈ [a, b]) : y.val.toInt * p ∈ Set.Icc lo hi :=
    mul_comm p _ ▸ mul_mem_Icc_of_ends hyr (corners p hp c (by simp)) (corners p hp d (by simp))
  obtain ⟨hlo, hhi⟩ := mul_mem_Icc_of_ends hxr (edge a (by simp)) (edge b (by simp))
  rw [mul_comm] at hlo hhi
  exact (exactResult_within hlo hhi hmin hmax).after (by rw [hxo, hyo]; rfl)

theorem Flagged.Within.square (hx : x.Within (-b) b) (hmax : b * b ≤ 2 ^ 63 - 1) :
    (x.mul x).Within 0 (b * b) := by
  obtain ⟨hxo, hlo, hhi⟩ := hx
  have le : x.val.toInt * x.val.toInt ≤ b * b := mul_self_le_mul_self_of_le_of_neg_le hhi (neg_le.mp hlo)
  exact (exactResult_within (mul_self_nonneg _) le (by decide) hmax).after (by rw [hxo]; rfl)

theorem Flagged.Within.sra (hx : x.Within a b) (k : Nat) : (x.sra k).Within (a / 2 ^ k) (b / 2 ^ k) := by
  obtain ⟨hxo, hxl, hxh⟩ := hx
  have pos : (0 : Int) < 2 ^ k := by positivity
  rw [Flagged.Within, Flagged.sra_ovf, Flagged.sra_val, sra64_toInt]
  exact ⟨hxo, Int.ediv_le_ediv pos hxl, Int.ediv_le_ediv pos hxh⟩

theorem Flagged.Within.shl (hx : x.Within a b) (k : Nat) (hmin : -2 ^ 63 ≤ a * 2 ^ k)
    (hmax : b * 2 ^ k ≤ 2 ^ 63 - 1) : (x.shl k).Within (a * 2 ^ k) (b * 2 ^ k) := by
  obtain ⟨hxo, hxl, hxh⟩ := hx
  have pos : (0 : Int) ≤ 2 ^ k := by positivity
  have exact64 : (shl64 x.val k).Within (a * 2 ^ k) (b * 2 ^ k) := by
    rw [shl64, Nat.cast_pow, Nat.cast_ofNat]
    exact exactResult_within (mul_le_mul_of_nonneg_right hxl pos) (mul_le_mul_of_nonneg_right hxh pos)
      hmin hmax
  exact exact64.after hxo

theorem Flagged.Within.mono (hx : x.Within a b) (hlo : lo ≤ a) (hhi : b ≤ hi) : x.Within lo hi := by
  obtain ⟨hxo, hxl, hxh⟩ := hx
  exact ⟨hxo, hlo.trans hxl, hxh.trans hhi⟩

end Ranges

/-! #### The operands -/

/-- A zero-extended value keeps its unsigned range. -/
theorem zeroExtend_within {n : Nat} (v : BitVec n) (hn : n < 64) :
    (Flagged.pure (v.zeroExtend 64)).Within 0 (2 ^ n - 1) := by
  have bound : (v.toNat : Int) < 2 ^ n := by exact_mod_cast v.isLt
  have value : (v.zeroExtend 64).toInt = v.toNat := by
    rw [BitVec.zeroExtend, ← BitVec.setWidth'_eq hn.le, BitVec.toInt_setWidth'_of_lt hn]
  rw [Flagged.Within, Flagged.pure_val, value]
  exact ⟨rfl, by omega, by omega⟩

theorem rawT_within (c : CompIn) : c.rawT.Within 0 1048575 := zeroExtend_within c.raw.t (by decide)

theorem coeff_unsigned_within {c : CompIn} {k : Fin 12} (h : k ∈ c.cfg.calUnsigned) :
    (c.coeff k).Within 0 65535 := by
  rw [coeff_eq, if_pos h]
  exact zeroExtend_within (c.cal.get k) (by decide)

theorem coeff_signed_within {c : CompIn} {k : Fin 12} (h : k ∉ c.cfg.calUnsigned) :
    (c.coeff k).Within (-32768) 32767 := by
  rw [coeff_eq, if_neg h, Flagged.Within, Flagged.pure_val,
    BitVec.toInt_signExtend_of_le (by decide)]
  exact ⟨rfl, (c.cal.get k).le_toInt, (c.cal.get k).toInt_le⟩

/-! #### The stages (42_compensation.md R170) -/

section Stages
variable {rawT t1 t2 t3 a b v1 v2 : Flagged}

theorem exprA_within (hr : rawT.Within 0 1048575) (h1 : t1.Within 0 65535) :
    (exprA rawT t1).Within (-131070) 131071 :=
  (hr.sra 3).sub (h1.shl 1 (by decide) (by decide)) (by decide) (by decide)

theorem exprV1_within (ha : a.Within (-131070) 131071) (h2 : t2.Within (-32768) 32767) :
    (exprV1 a t2).Within (-2097136) 2097120 := by
  have product : (a.mul t2).Within (-4294934528) 4294901760 :=
    ha.mul h2 (by decide) (by decide) (by decide)
  exact (product.sra 11).mono (by decide) (by decide)

theorem exprB_within (hr : rawT.Within 0 1048575) (h1 : t1.Within 0 65535) :
    (exprB rawT t1).Within (-65535) 65535 :=
  (hr.sra 4).sub h1 (by decide) (by decide)

theorem exprV2_within (hb : b.Within (-65535) 65535) (h3 : t3.Within (-32768) 32767) :
    (exprV2 b t3).Within (-2097088) 2097024 := by
  have square : ((b.mul b).sra 12).Within 0 1048544 :=
    ((hb.square (by decide)).sra 12).mono (by decide) (by decide)
  have product : (((b.mul b).sra 12).mul t3).Within (-34358689792) 34357641248 :=
    square.mul h3 (by decide) (by decide) (by decide)
  exact (product.sra 14).mono (by decide) (by decide)

theorem exprFine_within (h1 : v1.Within (-2097136) 2097120) (h2 : v2.Within (-2097088) 2097024) :
    (exprFine v1 v2).Within (-4194224) 4194144 :=
  h1.add h2 (by decide) (by decide)

end Stages

/-- Settles O47: by the ranges of the operands and, stage by stage, of the temporaries. -/
theorem fineTemperatureIsBounded : Obligations.FineTemperatureIsBounded := by
  intro c hc
  obtain ⟨u0, s1, s2⟩ : 0 ∈ c.cfg.calUnsigned ∧ 1 ∉ c.cfg.calUnsigned ∧ 2 ∉ c.cfg.calUnsigned := by
    rcases hc with h | h <;> rw [h] <;> decide
  have a := exprA_within (rawT_within c) (coeff_unsigned_within u0)
  have b := exprB_within (rawT_within c) (coeff_unsigned_within u0)
  exact exprFine_within (exprV1_within a (coeff_signed_within s1)) (exprV2_within b (coeff_signed_within s2))

end Sys2Proof.Machine

/-! ### The float quotient is zero or normal -/

namespace Sys2Proof.Machine

theorem fdiv32_zero {d : W64} (hd : 0 < d.toInt) : fdiv32 0 d = 0 := by
  rw [fdiv32, if_neg hd.not_ge, if_pos rfl]

/-- The quotients of 64-bit operands stay far inside the range of normal exponents. -/
theorem floatMagnitude_exponent {num den : Nat} (h : DivisionOperands num den) :
    63 ≤ floatMagnitude num den / 2 ^ 23 ∧ floatMagnitude num den / 2 ^ 23 ≤ 191 := by
  obtain ⟨-, -, he⟩ := floatScale_spec h.num_ne h.num_lt h.den_ne h.den_lt
  obtain ⟨hlo, hhi⟩ := floatSignificand_mem h
  unfold floatMagnitude
  omega

theorem floatExponent_fdiv32 {n d : W64} (hn : n ≠ 0) (hd : 0 < d.toInt) :
    floatExponent (fdiv32 n d) = floatMagnitude n.toInt.natAbs d.toNat / 2 ^ 23 := by
  have hM := floatMagnitude_lt (divisionOperands_of hn hd)
  rw [floatExponent_eq, fdiv32_toNat hn hd]
  split_ifs <;> omega

theorem fdiv32_signBit {n d : W64} (hn : n ≠ 0) (hd : 0 < d.toInt) :
    (fdiv32 n d).getLsbD 31 = true ↔ n.toInt < 0 := by
  have hM := floatMagnitude_lt (divisionOperands_of hn hd)
  rw [signBit_eq, fdiv32_toNat hn hd, decide_eq_true_eq]
  split_ifs with hneg
  · exact iff_of_true (Nat.le_add_right _ _) hneg
  · exact iff_of_false (by omega) hneg

/-- Settles O48: the magnitude bits hold an exponent field in 63..191, and the dividend's sign stands above
them. -/
theorem floatQuotientIsZeroOrNormal : Obligations.FloatQuotientIsZeroOrNormal := by
  intro n d hd
  refine ⟨fun hn => hn ▸ fdiv32_zero hd, fun hn => ?_⟩
  obtain ⟨hlo, hhi⟩ := floatMagnitude_exponent (divisionOperands_of hn hd)
  rw [floatExponent_fdiv32 hn hd]
  exact ⟨by omega, by omega, fdiv32_signBit hn hd⟩

end Sys2Proof.Machine

/-! ### The lock commands, the cell along a run, and the reads of an acquire -/

namespace Sys2Proof.Machine

section LockCommands
variable {a : Byte} {i : Instr} {w : Word} {s t : State}

/-- A well-formed try is performed whatever the engine does (43_lock.md R192). -/
theorem exec_lockTry (ha : a ≠ 0) (s : State) : exec (.lockTry a) s = .next (s.tryLock a) :=
  if_pos (by simpa [agentOk] using ha)

/-- A well-formed release is performed whatever the engine does (43_lock.md R194). -/
theorem exec_lockRel (ha : a ≠ 0) (s : State) : exec (.lockRel a) s = .next (s.releaseLock a) :=
  if_pos (by simpa [agentOk] using ha)

/-- At most the lock cell and `LOCKVIOL` differ in `t` from `s`. -/
def LockOnly (s t : State) : Prop :=
  ∃ (l : LockCell) (v : Bool), t = { s with lock := l, flags := { s.flags with lockviol := v } }

theorem lockOnly_setLockviol (s : State) : LockOnly s s.setLockviol := ⟨s.lock, true, rfl⟩

theorem lockOnly_tryLock (s : State) (a : Byte) : LockOnly s (s.tryLock a) := by
  unfold State.tryLock
  split
  · exact ⟨s.lock, s.flags.lockviol, rfl⟩
  · exact ⟨⟨true, a⟩, s.flags.lockviol, rfl⟩

theorem lockOnly_releaseLock (s : State) (a : Byte) : LockOnly s (s.releaseLock a) := by
  unfold State.releaseLock
  split
  · exact ⟨LockCell.zero, s.flags.lockviol, rfl⟩
  · exact lockOnly_setLockviol s

/-- The lock commands, the malformed agent 0 among them (43_lock.md R195). -/
theorem exec_lockOnly (hi : i = .lockTry a ∨ i = .lockRel a) (h : exec i s = .next t) : LockOnly s t := by
  by_cases ha : a = 0
  · have violation : exec i s = .next s.setLockviol := by rcases hi with rfl | rfl <;> subst ha <;> rfl
    obtain rfl := Host.Outcome.next.inj (violation.symm.trans h)
    exact lockOnly_setLockviol s
  · rcases hi with rfl | rfl
    · obtain rfl := Host.Outcome.next.inj ((exec_lockTry ha s).symm.trans h)
      exact lockOnly_tryLock s a
    · obtain rfl := Host.Outcome.next.inj ((exec_lockRel ha s).symm.trans h)
      exact lockOnly_releaseLock s a

/-- Only the words of the lock commands come to an operation on the cell. -/
theorem CommandOp.lock_eq (h : CommandOp w s t)
    (hw : ¬∃ a, decode w = .ok (.lockTry a) ∨ decode w = .ok (.lockRel a)) : t.lock = s.lock := by
  cases h with
  | lock l hl => exact absurd hl hw
  | started _ hu hl => exact (launch_lock hl).trans hu.lock_eq
  | none | dropped | violation | softReset | clearError | refused => rfl

/-- Only the lock commands have an `AGENT` field to be ill-formed. -/
theorem wf_of_not_lock (hi : ∀ a, i ≠ .lockTry a ∧ i ≠ .lockRel a) : i.wf = true := by
  cases i with
  | lockTry a => exact absurd rfl (hi a).1
  | lockRel a => exact absurd rfl (hi a).2
  | nop | calld | rawld | comp | clrerr | sreset => rfl

end LockCommands

/-- Settles O57: no step of the run frees the lock, and every other step leaves it to its owner. -/
theorem ownerKeepsLockUntilRelease : Obligations.OwnerKeepsLockUntilRelease :=
  fun _ n _ hrun ho hfree => hrun.ownedBy n.zero_le le_rfl ho fun m _ hmn => hfree m hmn

/-- Settles O23: by what the two lock commands can do, and by the operations the word of another command can
come to. -/
theorem lockAndEngineAreIndependent : Obligations.LockAndEngineAreIndependent := by
  refine ⟨fun a s t i hi h => exec_lockOnly hi h, fun i s t hi h => ?_⟩
  have hw : decode (encode i) = .ok i := decode_encode (wf_of_not_lock hi)
  refine (exec_op hw h).lock_eq ?_
  rintro ⟨a, ha | ha⟩
  · exact (hi a).1 (Except.ok.inj (hw.symm.trans ha))
  · exact (hi a).2 (Except.ok.inj (hw.symm.trans ha))

/-- Settles O19: the try of a well-formed agent, on a free cell and on a held one. -/
theorem lockTryTakesFreeLock : Obligations.LockTryTakesFreeLock := by
  intro s a ha
  rw [exec_lockTry ha]
  exact ⟨fun free => by rw [State.tryLock_free a free], fun held => by rw [State.tryLock_held a held]⟩

/-- Settles O20: the release of a well-formed agent, by the owner and by another. -/
theorem lockRelFreesOwnLock : Obligations.LockRelFreesOwnLock := by
  intro s a ha
  rw [exec_lockRel ha]
  refine ⟨fun ⟨held, owner⟩ => ?_, fun other => ?_⟩
  · rw [State.releaseLock_owner held owner]
    rfl
  · rw [State.releaseLock_other other]
    rfl

/-! #### The reads of `LOCK_ACQ` and `LOCK_TRYN` -/

section Acquire
variable {a : Byte} {s : State} {rest : List Event} {k : Nat} {th : Thread} {l : Line} {ls : List Line}

/-- `LOCK` shows the granted word of agent `a` exactly when `a` owns the lock (43_lock.md R193). -/
theorem lockWord_eq_grantedWord : lockWord s.lock = grantedWord a ↔ OwnedBy a s := by
  rw [grantedWord, ← lockWord_owned, lockWord_injective.eq_iff, OwnedBy]

/-- The step of a thread whose line reads `LOCK` records the word read and goes on behind it. -/
theorem step_lockRead (hin : s.env.inputs = .thread k :: rest) (hth : s.env.threads[k]? = some th)
    (hprog : th.prog = l :: ls) (hl : l.access = some (.read 0x0C 4)) :
    step s = .next (((s.withInputs rest).withResp (.value 4 (lockWord s.lock))).withThread k
      (th.resume l ls (.value 4 (lockWord s.lock)))) := by
  have lock : memRead (s.withInputs rest) 0x0C 4 = some (lockWord s.lock) :=
    memRead_register _ rfl (by decide) (by decide)
  exact (step_thread hin hth hprog).trans (performLine_access hl (hostAccess_read lock))

/-- Where the word read is the granted one, both acquires end (43_lock.md R196, R197). -/
theorem resume_granted (n : Nat) (hl : l = .lockAcqRead a ∨ ∃ m, l = .lockTryNRead a m) :
    th.resume l ls (.value n (grantedWord a)) =
      { th.took (grantedWord a) ls with result := some .granted } := by
  rcases hl with rfl | ⟨m, rfl⟩ <;> exact if_pos rfl

variable {n : Nat} {v : Word}

/-- `LOCK_ACQ` tries again without bound (43_lock.md R196). -/
theorem resume_lockAcqRead_refused (hv : v ≠ grantedWord a) :
    th.resume (.lockAcqRead a) ls (.value n v) = th.took v (.lockAcq a :: ls) := if_neg hv

/-- After its last try `LOCK_TRYN` ends `Busy`, before it tries again (43_lock.md R197). -/
theorem resume_lockTryNRead_refused (m : Nat) (hv : v ≠ grantedWord a) :
    th.resume (.lockTryNRead a m) ls (.value n v) =
      if m = 0 then { th.took v ls with result := some .busy } else th.took v (.lockTryN a m :: ls) :=
  if_neg hv

end Acquire

/-- Settles O59: the line reads `LOCK`, and the thread turns on whether the word read is the granted one. -/
theorem acquireEndsOnlyAsOwner : Obligations.AcquireEndsOnlyAsOwner := by
  intro s rest k th a l ls hin hth hprog hl
  have reads : l.access = some (.read 0x0C 4) := by rcases hl with rfl | ⟨m, rfl⟩ <;> rfl
  have hk : k < s.env.threads.length := (List.getElem?_eq_some_iff.mp hth).1
  refine ⟨_, th.resume l ls (.value 4 (lockWord s.lock)), step_lockRead hin hth hprog reads, by simp [hk],
    rfl, rfl, rfl, fun ho => ?_, fun hno => ?_⟩
  · rw [lockWord_eq_grantedWord.mpr ho, resume_granted 4 hl]
    exact ⟨rfl, rfl⟩
  · have hv : lockWord s.lock ≠ grantedWord a := mt lockWord_eq_grantedWord.mp hno
    refine ⟨fun hacq => ?_, fun hlast => ?_, fun m hagain => ?_⟩
    · rw [hacq, resume_lockAcqRead_refused hv]
      rfl
    · rw [hlast, resume_lockTryNRead_refused 0 hv, if_pos rfl]
      exact ⟨rfl, rfl⟩
    · rw [hagain, resume_lockTryNRead_refused (m + 1) hv, if_neg m.succ_ne_zero]
      rfl

end Sys2Proof.Machine

/-! ### The control commands (44_control.md R211 to R213) -/

namespace Sys2Proof.Machine

/-- `NOP` has the one word 0 (44_control.md R211). -/
theorem decode_eq_nop_iff {w : Word} : decode w = .ok .nop ↔ w = 0 :=
  calc decode w = .ok .nop
    _ ↔ Instr.nop.wf = true ∧ encode .nop = w := decode_eq_ok_iff
    _ ↔ encode .nop = w := and_iff_right rfl
    _ ↔ w = 0 := eq_comm

theorem exec_nop (s : State) : exec .nop s = .next s := rfl

/-- `CLRERR` is subject to the engine's tests (30_encoding.md R99). -/
theorem exec_clrerr (s : State) : exec .clrerr s = engineGate s (.next s.clearError) := rfl

/-- `SRESET` is performed whatever the engine does (44_control.md R213). -/
theorem exec_sreset (s : State) : exec .sreset s = .next s.softReset := rfl

/-- Settles O13: by the one word of `NOP`; 0x00000100 has a bit of `ZERO24` set. -/
theorem nopChangesNothing : Obligations.NopChangesNothing :=
  ⟨exec_nop, fun _ => decode_eq_nop_iff, decode_illegal_iff.mpr (by decide)⟩

/-- Settles O17: by the three outcomes of the engine's tests. -/
theorem clrerrClearsDiagnostics : Obligations.ClrerrClearsDiagnostics := by
  intro s
  rw [exec_clrerr]
  exact ⟨engineGate_open _, engineGate_busy _, engineGate_failed _⟩

/-- Settles O18: by the fields of the reset, which leaves `BUSY = 0`. -/
theorem sresetResetsAllButLock : Obligations.SresetResetsAllButLock := by
  intro s
  have idle : sequencerTurn s.softReset = .next s.softReset := sequencerTurn_idle rfl
  refine ⟨s.softReset, exec_sreset s, ?_⟩
  simp [idle]

end Sys2Proof.Machine

/-! ### The error entry and the fatal error (60_exceptions.md R220 to R236) -/

namespace Sys2Proof.Machine

/-! #### The words outside the engine's tests -/

section Words
variable {w : Word} {s t : State}

/-- A word that no test of the engine sees is `SRESET` or touches at most the lock cell and `LOCKVIOL`: the
counterpart of `commandWrite_engineGate`. -/
theorem commandWrite_lockOnly (hd : droppedWhileBusy w = false) (h : commandWrite w s = .next t) :
    LockOnly s t ∨ (decode w = .ok .sreset ∧ t = s.softReset) := by
  cases hw : decode w with
  | ok i =>
    rw [commandWrite_decoded hw] at h
    cases i with
    | calld | rawld | comp | clrerr => simp [droppedWhileBusy, hw] at hd
    | nop => cases h; exact .inl ⟨_, _, rfl⟩
    | sreset => cases h; exact .inr ⟨rfl, rfl⟩
    | lockTry a => exact .inl (exec_lockOnly (.inl rfl) h)
    | lockRel a => exact .inl (exec_lockOnly (.inr rfl) h)
  | error e =>
    cases e with
    | malformedLock =>
      cases (commandWrite_malformedLock hw s).symm.trans h
      exact .inl (lockOnly_setLockviol s)
    | illegal | short => simp [droppedWhileBusy, hw] at hd

/-- A write in the buffer region enters no error and ends none. -/
theorem bufferWrite_error (s : State) (off n : Nat) (v : Word) :
    (bufferWrite s off n v).flags.err = s.flags.err ∧
      (bufferWrite s off n v).flags.failed = s.flags.failed ∧ (bufferWrite s off n v).cause = s.cause := by
  rcases bufferWrite_cases s off n v with ⟨-, -, e⟩ | ⟨-, -, e⟩ | ⟨-, e⟩ <;> rw [e] <;> exact ⟨rfl, rfl, rfl⟩

end Words

/-! #### Where an error is entered -/

/-- `t` is the error entry of kind `e` from `s`, but for the temporaries and the fields outside the block, of
which R230 says nothing, and for the raw pair, which nothing has touched or the accept of `RAWLD` has
cleared. -/
def ErrorEntered (e : ErrorKind) (s t : State) : Prop :=
  t = { s.raiseError e with
    tmp := t.tmp, free := t.free, env := t.env, raw := t.raw
    flags := { (s.raiseError e).flags with rawValid := t.flags.rawValid } } ∧
  ((t.raw = s.raw ∧ t.flags.rawValid = s.flags.rawValid) ∨ (t.raw = Raw.zero ∧ t.flags.rawValid = false))

/-- `t` is the error entry of a kind that the block raises (60_exceptions.md R221). -/
def RaisedFrom (s t : State) : Prop := ∃ e : ErrorKind, e.raisedByBlock = true ∧ ErrorEntered e s t

section Entry
variable {w : Word} {s t u : State}

theorem RaisedFrom.raiseError (s : State) {e : ErrorKind} (he : e.raisedByBlock = true) :
    RaisedFrom s (s.raiseError e) := ⟨e, he, rfl, .inl ⟨rfl, rfl⟩⟩

theorem RaisedFrom.of_env {a : Env} (h : RaisedFrom { s with env := a } t) (b : Env) :
    RaisedFrom s { t with env := b } := by
  obtain ⟨e, he, ht, hraw⟩ := h
  exact ⟨e, he, congrArg (fun v : State => { v with env := b }) ht, hraw⟩

/-- Of the stages only the two checks enter an error. -/
theorem sequencerStep_raises (h : sequencerStep s = .next t) :
    t.flags.err = s.flags.err ∨ RaisedFrom s t := by
  rcases sequencerStep_next h with ⟨-, rfl⟩ | ⟨-, rfl⟩ | ⟨-, rfl⟩ | ⟨-, rfl⟩ | ⟨-, rfl⟩ | ⟨-, rfl⟩ |
    ⟨-, rfl⟩ | ⟨-, rfl⟩
  · exact .inl rfl
  · unfold stageCalCheck
    split
    · exact .inr ⟨.invalidCalibration, rfl, rfl, .inl ⟨rfl, rfl⟩⟩
    · exact .inl rfl
  · exact .inl rfl
  · exact .inl rfl
  · unfold stageRawCheck
    split
    · exact .inr ⟨.invalidRawReading, rfl, rfl, .inl ⟨rfl, rfl⟩⟩
    · exact .inl rfl
  · exact .inl rfl
  · exact .inl rfl
  · exact .inl rfl

/-! What an atomic accept answers: the stages of a command end within the turns of R102, in a commit or in the
error of the check. -/

/-- An accept answers its accepted state or, with `STAGE_ATOMIC`, the state the turns end in. -/
theorem launch_eq_of_turns {n : Nat} (hn : n ≤ maxStages) (hu : sequencerTurns n s = .next u)
    (hb : u.flags.busy = false) (h : launch s = .next t) : t = s ∨ t = u := by
  cases ha : s.cfg.stageAtomic with
  | false => cases (launch_staged ha).symm.trans h; exact .inl rfl
  | true =>
    have hend : launch s = .next u := (launch_atomic ha).trans (sequencerTurns_past_end hn hu hb)
    cases hend.symm.trans h
    exact .inr rfl

theorem sequencerTurns_calld_invalid (hb : s.flags.busy = true) (hs : s.stage = .calParse)
    (hv : calInvalid (stageCalParse s) = true) :
    sequencerTurns 2 s = .next ((stageCalParse s).raiseError .invalidCalibration).forgetTemps := by
  have check : sequencerStep (stageCalParse s) =
      .next ((stageCalParse s).raiseError .invalidCalibration).forgetTemps := by
    rw [sequencerStep_calCheck rfl, stageCalCheck_invalid hv]
  exact (sequencerTurns_step 1 hb (sequencerStep_calParse hs)).trans (sequencerTurns_step 0 hb check)

theorem sequencerTurns_rawld_sentinel (hb : s.flags.busy = true) (hs : s.stage = .rawDecode)
    (hv : (isSentinel (rawTriplet s.mem 3) || isSentinel (rawTriplet s.mem 0)) = true) :
    sequencerTurns 2 s = .next ((stageRawDecode s).raiseError .invalidRawReading).forgetTemps := by
  have check : sequencerStep (stageRawDecode s) =
      .next ((stageRawDecode s).raiseError .invalidRawReading).forgetTemps := by
    rw [sequencerStep_rawCheck rfl, stageRawCheck_sentinel hv]
  exact (sequencerTurns_step 1 hb (sequencerStep_rawDecode hs)).trans (sequencerTurns_step 0 hb check)

/-- A command that starts enters an error in its accept step only where its stages run there and its check
fails: the commit stages enter none. -/
theorem CommandStart.raises (hu : CommandStart w s u) (h : launch u = .next t) :
    t.flags.err = false ∨ RaisedFrom s t := by
  cases hu with
  | calld _ _ =>
    by_cases hv : calInvalid (stageCalParse (s.accept .calParse)) = true
    · obtain rfl | rfl := launch_eq_of_turns (by decide) (sequencerTurns_calld_invalid rfl rfl hv) rfl h
      · exact .inl rfl
      · exact .inr ⟨.invalidCalibration, rfl, rfl, .inl ⟨rfl, rfl⟩⟩
    · obtain rfl | rfl := launch_eq_of_turns (by decide) (sequencerTurns_calld rfl rfl hv) rfl h <;>
        exact .inl rfl
  | rawld _ _ =>
    cases hp : isSentinel (rawTriplet s.mem 3) || isSentinel (rawTriplet s.mem 0) with
    | true =>
      obtain rfl | rfl :=
        launch_eq_of_turns (by decide) (sequencerTurns_rawld_sentinel (s := s.startRawld) rfl rfl hp) rfl h
      · exact .inl rfl
      · exact .inr ⟨.invalidRawReading, rfl, rfl, .inr ⟨rfl, rfl⟩⟩
    | false =>
      obtain ⟨ht, hp⟩ := Bool.or_eq_false_iff.mp hp
      obtain rfl | rfl :=
        launch_eq_of_turns (by decide) (sequencerTurns_rawld (s := s.startRawld) rfl rfl hp ht) rfl h <;>
        exact .inl rfl
  | comp _ _ _ =>
    obtain ⟨p, -, turns⟩ := sequencerTurns_startComp s
    obtain rfl | rfl := launch_eq_of_turns (by split <;> decide) turns rfl h <;> exact .inl rfl

/-- The closed gate enters no error. -/
theorem engineGate_raises {k : Host.Outcome State Fault Refusal} (h : engineGate s k = .next t)
    (hk : k = .next t → t.flags.err = false ∨ RaisedFrom s t) (hs : s.flags.err = false) :
    t.flags.err = false ∨ RaisedFrom s t := by
  rcases engineGate_cases s k with ⟨-, e⟩ | ⟨-, -, e⟩ | ⟨-, -, e⟩ <;> rw [e] at h
  · cases h; exact .inl hs
  · cases h; exact .inl hs
  · exact hk h

/-- A command word enters an error where it is illegal, where its accept refuses it, or where it starts and
its stages run in the accept step. -/
theorem commandWrite_raises (h : commandWrite w s = .next t) (hs : s.flags.err = false) :
    t.flags.err = false ∨ RaisedFrom s t := by
  cases hd : droppedWhileBusy w with
  | false =>
    obtain ⟨l, v, rfl⟩ | ⟨-, rfl⟩ := commandWrite_lockOnly hd h
    · exact .inl hs
    · exact .inl rfl
  | true =>
    cases hw : decode w with
    | ok i =>
      rw [commandWrite_decoded hw] at h
      cases i with
      | nop | sreset | lockTry | lockRel => simp [droppedWhileBusy, hw] at hd
      | calld =>
        refine engineGate_raises h (fun hk => ?_) hs
        obtain ⟨-, rfl⟩ | ⟨hc, hl⟩ := acceptCalld_next hk
        · exact .inr (.raiseError s rfl)
        · exact (CommandStart.calld hw hc).raises hl
      | rawld =>
        refine engineGate_raises h (fun hk => ?_) hs
        obtain ⟨-, rfl⟩ | ⟨hc, hl⟩ := acceptRawld_next hk
        · exact .inr (.raiseError s rfl)
        · exact (CommandStart.rawld hw hc).raises hl
      | comp =>
        refine engineGate_raises h (fun hk => ?_) hs
        obtain ⟨-, rfl⟩ | ⟨-, -, rfl⟩ | ⟨hc, hr, hl⟩ := acceptComp_next hk
        · exact .inr (.raiseError s rfl)
        · exact .inr (.raiseError s rfl)
        · exact (CommandStart.comp hw hc hr).raises hl
      | clrerr => exact engineGate_raises h (fun hk => by cases hk; exact .inl rfl) hs
    | error e =>
      cases e with
      | illegal =>
        rw [commandWrite_illegal hw] at h
        exact engineGate_raises h (fun hk => by cases hk; exact .inr (.raiseError s rfl)) hs
      | malformedLock => simp [droppedWhileBusy, hw] at hd
      | short => exact absurd hw (decode_ne_short w)

/-- A step from `ERR = 0` leaves it so, or is an error entry. -/
theorem step_raises (h : step s = .next t) (hs : s.flags.err = false) :
    t.flags.err = false ∨ RaisedFrom s t := by
  obtain ⟨a, b, u, hu, rfl⟩ := step_oneBlockOp h
  have block : u.flags.err = false ∨ RaisedFrom { s with env := a } u := by
    cases hu with
    | none => exact .inl hs
    | command w hw => exact commandWrite_raises hw hs
    | buffer off n v => exact .inl ((bufferWrite_error { s with env := a } off n v).1.trans hs)
    | stage _ hq => exact (sequencerStep_raises hq).imp_left fun he => he.trans hs
    | hardReset => exact .inl rfl
  exact block.imp_right fun raised => raised.of_env b

end Entry

/-- Settles O25: the operations of a step that set `ERR` are the refusals of an accept, the illegal word and
the two checks, and each is an error entry. -/
theorem errorEntryIsPrecise : Obligations.ErrorEntryIsPrecise := by
  intro s t h hs ht
  obtain hf | ⟨e, he, entry, hraw⟩ := step_raises h hs
  · simp [hf] at ht
  · rw [entry]
    exact ⟨rfl, rfl, rfl, ⟨e, he, rfl, rfl⟩, rfl, fun _ => rfl, rfl, rfl, rfl, rfl, rfl, rfl, rfl, rfl, hraw⟩

/-! #### The fatal error -/

section Fatal
variable {w : Word} {s t : State}

/-- With `FAILED = 1` nothing runs. -/
theorem Inv.not_busy_of_failed (h : Inv s) (hf : s.flags.failed = true) : s.flags.busy = false := by
  by_contra hb
  simp [h.not_failed_of_busy (by simpa using hb)] at hf

/-- With `FAILED = 1` the flags are those of a block with no set, no measurement and no result, `ERR` and
`FAILED` apart; `CMDOVR` and `LOCKVIOL` are free (10_state.md R44). -/
theorem Inv.flags_of_failed (h : Inv s) (hf : s.flags.failed = true) :
    s.flags = { Flags.zero with
      err := true, failed := true, cmdovr := s.flags.cmdovr, lockviol := s.flags.lockviol } := by
  have err : s.flags.err = true := (h.failedShown hf).1
  have busy := h.not_busy_of_failed hf
  have done : s.flags.done = false := by simpa [err] using h.atMostOne.2.2
  have cal : s.flags.calValid = false := by simpa [hf] using h.notReadyAndFailed
  have raw : s.flags.rawValid = false := by simpa [cal] using h.rawNeedsCal
  have comp : (s.flags.resValid || s.flags.zden || s.flags.ovf) = false := by
    simpa [cal] using h.compFlagsNeedCal
  simp only [Bool.or_eq_false_iff] at comp
  obtain ⟨⟨res, zden⟩, ovf⟩ := comp
  cases hfl : s.flags
  simp_all only [Flags.zero]

/-- The word such flags show. -/
theorem statusWord_failed (cmdovr lockviol : Bool) :
    statusWord { Flags.zero with err := true, failed := true, cmdovr := cmdovr, lockviol := lockviol } .idle
      &&& 0xFFFFF9FF#32 = 0x0000000C#32 := by
  cases cmdovr <;> cases lockviol <;> decide

/-- With `FAILED = 1` the words that go through the engine's tests change nothing (60_exceptions.md R236). -/
theorem Inv.commandWrite_of_failed (h : Inv s) (hf : s.flags.failed = true) (hd : droppedWhileBusy w = true) :
    commandWrite w s = .next s := by
  obtain ⟨k, gate⟩ := commandWrite_engineGate hd s
  exact gate.trans (engineGate_failed k (h.not_busy_of_failed hf) hf)

/-- The fatal error stays through every command word but `SRESET`. -/
theorem Inv.failed_of_commandWrite (h : Inv s) (hf : s.flags.failed = true) (hw : commandWrite w s = .next t) :
    (t.flags.failed = true ∧ t.cause = s.cause) ∨ decode w = .ok .sreset := by
  cases hd : droppedWhileBusy w with
  | true =>
    cases (h.commandWrite_of_failed hf hd).symm.trans hw
    exact .inl ⟨hf, rfl⟩
  | false =>
    obtain ⟨l, v, rfl⟩ | ⟨hr, -⟩ := commandWrite_lockOnly hd hw
    · exact .inl ⟨hf, rfl⟩
    · exact .inr hr

/-- The fatal error stays through every step but a reset. -/
theorem Inv.failed_of_step (h : Inv s) (hf : s.flags.failed = true) (ht : step s = .next t) :
    (t.flags.failed = true ∧ t.cause = s.cause) ∨ s.nextEvent = some .hardReset ∨
      ∃ w, s.nextCommand = some w ∧ decode w = .ok .sreset := by
  obtain ⟨a, b, u, hu, rfl⟩ := step_oneEventOp ht
  have hinv : Inv { s with env := a } := h.withEnv a
  cases hu with
  | none => exact .inl ⟨hf, rfl⟩
  | command hc hw => exact (hinv.failed_of_commandWrite hf hw).imp_right fun hr => .inr ⟨_, hc, hr⟩
  | buffer off n v =>
    obtain ⟨-, hfailed, hcause⟩ := bufferWrite_error { s with env := a } off n v
    exact .inl ⟨hfailed.trans hf, hcause⟩
  | stage hb _ => simp [h.not_busy_of_failed hf] at hb
  | hardReset he => exact .inr (.inl he)

end Fatal

/-- Settles O26: by the flags of a failed block, the engine's tests, and the operations a step can come to. -/
theorem failedLastsUntilReset : Obligations.FailedLastsUntilReset := by
  intro s h hf
  have cause : s.cause = 5 := (h.failedShown hf).2
  refine ⟨?_, by rw [cause]; rfl, fun w hd => h.commandWrite_of_failed hf hd, fun t ht => ?_⟩
  · rw [h.flags_of_failed hf, h.stage_idle (h.not_busy_of_failed hf)]
    exact statusWord_failed _ _
  · exact cause ▸ h.failed_of_step hf ht

end Sys2Proof.Machine

/-! ### The reset state (70_reset_and_hazards.md R261) -/

namespace Sys2Proof.Machine

/-- A cleared coefficient file shows words of 0, extended either way (10_state.md R46). -/
theorem coeffWord_zero (cfg : Config) (k : Fin 12) : coeffWord cfg CalSet.zero k = 0 := by
  rw [coeffWord, CalSet.zero_get]
  split <;> rfl

/-- After reset every register word is 0, coefficients included (10_state.md R42). -/
theorem registerWord_reset (off : Nat) : registerWord State.reset off = 0 := by
  simp only [registerWord, State.reset, coeffWord_zero]
  split <;> rfl

theorem byteOf_zero (j : Nat) : byteOf 0 j = 0 := by simp [byteOf]

/-- After reset every byte of the window is 0: those of the buffers are unlisted, the others are bytes of
register words. -/
theorem windowByte_reset (a : Nat) : windowByte State.reset a = 0 := by
  rw [windowByte, registerWord_reset, byteOf_zero]
  split
  · exact Memory.read_nil a
  · rfl

/-- Settles O12: by the register words and the empty memory of the reset state; with no event to come a
step is a turn of the idle sequencer. -/
theorem resetStateShowsZeroAndIdles : Obligations.ResetStateShowsZeroAndIdles := by
  have register {off : Nat} (h : off % 4 = 0 ∧ off + 4 ≤ 256 ∧ (off < 0x10 ∨ 0x30 ≤ off)) :
      memRead State.reset off 4 = some 0 := by
    rw [memRead_register _ h.1 h.2.1 h.2.2, registerWord_reset]
  have idle : step State.reset = .next State.reset :=
    calc step State.reset
      _ = sequencerTurn State.reset := rfl
      _ = .next State.reset := sequencerTurn_idle rfl
  exact ⟨register (by decide), register (by decide), register (by decide), windowByte_reset, rfl, idle⟩

end Sys2Proof.Machine
